-- ==== Sys2Proof/Word.lean ====
section
/-! DEFINITION. The unsigned quantities of the engine (spec/00_scope.md R9): bytes and 32-bit words. -/

namespace Sys2Proof

/-- `u8`: an unsigned integer below 2^8 (R9). -/
abbrev Byte := BitVec 8

/-- `u32`: an unsigned integer below 2^32, with arithmetic modulo 2^32 (R9, R112). -/
abbrev Word := BitVec 32

end Sys2Proof
end

