-- ==== Sys2Proof/Syntax.lean ====
section
/-! DEFINITION. The instruction set: the twelve commands of spec/30_encoding.md R80, one constructor per row of
spec/opcode_table.json, in the table's order. No command has an operand field: every operand is a register, a
buffer or a stream (R86). -/

namespace Sys2Proof

/-- A command of the engine (R80). -/
inductive Instr where
  /-- `LPRNG.NEW`, 0x10 (R114) -/
  | lprngNew
  /-- `LPRNG.DRAW`, 0x11 (R115) -/
  | lprngDraw
  /-- `KD.DERIVE`, 0x20 (R130) -/
  | kdDerive
  /-- `DDP.DECODE.PU`, 0x30 (R167) -/
  | ddpDecodePU
  /-- `DDP.DECODE.PC`, 0x31 (R168) -/
  | ddpDecodePC
  /-- `DDP.DECODE.KU`, 0x32 (R169) -/
  | ddpDecodeKU
  /-- `DDP.DECODE.KC`, 0x33 (R170) -/
  | ddpDecodeKC
  /-- `RPA.ASSEMBLE`, 0x40 (R238) -/
  | rpaAssemble
  /-- `SEC.RUN.PU`, 0x50 (R263) -/
  | secRunPU
  /-- `SEC.RUN.PC`, 0x51 (R264) -/
  | secRunPC
  /-- `SEC.RUN.DU`, 0x52 (R265) -/
  | secRunDU
  /-- `SEC.RUN.DC`, 0x53 (R266) -/
  | secRunDC
  deriving DecidableEq, Repr, Inhabited

end Sys2Proof
end

