-- ==== Sys2Proof/WellFormed.lean ====
section
/-! DEFINITION. The fields of the command format `C8` (spec/30_encoding.md R80) and the checks a command byte must
pass to be one of the twelve (R81, R90). -/

namespace Sys2Proof

/-- The four fields of a command byte (R80): `UNIT` in bits 7:4, `Z` in bits 3:2, `F1` in bit 1, `F0` in bit 0. -/
structure CmdFields where
  unit : BitVec 4
  z : BitVec 2
  f1 : Bool
  f0 : Bool
  deriving DecidableEq, Repr

/-- "bits 3:2, `Z`, must be 0" (R80). -/
def CmdFields.zClear (c : CmdFields) : Bool := c.z == 0#2

/-- `UNIT` names one of the five units: 1 LPRNG, 2 KDU, 3 DDP, 4 RPA, 5 ORCH (R80). -/
def CmdFields.unitDefined (c : CmdFields) : Bool :=
  c.unit == 1#4 || c.unit == 2#4 || c.unit == 3#4 || c.unit == 4#4 || c.unit == 5#4

/-- The flags the unit allows (R80): LPRNG needs `F1 = 0`; KDU and RPA need both clear; DDP and ORCH take all four
values (R81). -/
def CmdFields.flagsAllowed (c : CmdFields) : Bool :=
  if c.unit == 1#4 then !c.f1
  else if c.unit == 2#4 || c.unit == 4#4 then !c.f1 && !c.f0
  else true

/-- A combination of fields that stands in R80's table. -/
def CmdFields.wf (c : CmdFields) : Bool := c.zClear && c.unitDefined && c.flagsAllowed

/-- The fields of each command, written from R80's table. -/
def Instr.fields : Instr → CmdFields
  | .lprngNew => ⟨1#4, 0#2, false, false⟩
  | .lprngDraw => ⟨1#4, 0#2, false, true⟩
  | .kdDerive => ⟨2#4, 0#2, false, false⟩
  | .ddpDecodePU => ⟨3#4, 0#2, false, false⟩
  | .ddpDecodePC => ⟨3#4, 0#2, false, true⟩
  | .ddpDecodeKU => ⟨3#4, 0#2, true, false⟩
  | .ddpDecodeKC => ⟨3#4, 0#2, true, true⟩
  | .rpaAssemble => ⟨4#4, 0#2, false, false⟩
  | .secRunPU => ⟨5#4, 0#2, false, false⟩
  | .secRunPC => ⟨5#4, 0#2, false, true⟩
  | .secRunDU => ⟨5#4, 0#2, true, false⟩
  | .secRunDC => ⟨5#4, 0#2, true, true⟩

/-- A command is well formed when its fields are. The commands carry no operands, so the checks are all on the
fields. -/
def Instr.WellFormed (i : Instr) : Bool := i.fields.wf

end Sys2Proof
end

