-- ==== Sys2Proof/Decode.lean ====
section
/-! DEFINITION. Decoding a command byte and encoding a command (spec/30_encoding.md R80, R81, R88, R90). -/

namespace Sys2Proof

/-- Why a command byte is reserved (R81, R90). -/
inductive DecodeError where
  /-- `CMD[3:2]` is not 0 -/
  | zNotZero
  /-- `UNIT` is none of the five units -/
  | unitReserved
  /-- the unit does not define this `(F1, F0)` -/
  | flagsReserved
  deriving DecidableEq, Repr

/-- Take a command byte apart into the fields of format `C8` (R80). -/
def cmdFields (b : Byte) : CmdFields :=
  { unit := b.extractLsb' 4 4, z := b.extractLsb' 2 2, f1 := b.getLsbD 1, f0 := b.getLsbD 0 }

/-- Put the fields of format `C8` together into a byte (R80). -/
def cmdByte (c : CmdFields) : Byte :=
  c.unit ++ c.z ++ BitVec.ofBool c.f1 ++ BitVec.ofBool c.f0

/-- R80's table, read by `(UNIT, F1, F0)` (R81). -/
def lookupCommand (unit : BitVec 4) (f1 f0 : Bool) : Option Instr :=
  match unit.toNat, f1, f0 with
  | 1, false, false => some .lprngNew
  | 1, false, true => some .lprngDraw
  | 2, false, false => some .kdDerive
  | 3, false, false => some .ddpDecodePU
  | 3, false, true => some .ddpDecodePC
  | 3, true, false => some .ddpDecodeKU
  | 3, true, true => some .ddpDecodeKC
  | 4, false, false => some .rpaAssemble
  | 5, false, false => some .secRunPU
  | 5, false, true => some .secRunPC
  | 5, true, false => some .secRunDU
  | 5, true, true => some .secRunDC
  | _, _, _ => none

/-- The decoder (R81): "if `CMD[3:2] != 0` the command is reserved; otherwise look up `(UNIT, F1, F0)` ... a
combination that is not in the table is reserved". -/
def decode (b : Byte) : Except DecodeError Instr :=
  let c := cmdFields b
  if !c.zClear then .error .zNotZero
  else if !c.unitDefined then .error .unitReserved
  else
    match lookupCommand c.unit c.f1 c.f0 with
    | some i => .ok i
    | none => .error .flagsReserved

/-- The encoder: the one byte of a command (R80). -/
def encode (i : Instr) : Byte := cmdByte i.fields

/-- What the decoder reads from an instruction whose bits are `w`, of which `nbits` are given and the rest are 0. A
command is one byte (R80, R91), so it is read from bits 7:0. -/
def decodeTableWord (nbits w : Nat) : Option Instr :=
  match decode (BitVec.ofNat 8 (w % 2 ^ nbits)) with
  | .ok i => some i
  | .error _ => none

end Sys2Proof
end

