-- ==== Sys2Proof/Config.lean ====
section
/-! DEFINITION. What the spec leaves to the configuration (spec/00_scope.md R8, spec/92_eei_decisions.md section 1):
the constants the source fixes (R7), the opaque types, and the open parameters. Every operation of the machine takes
the parameters as an argument of type `Params`; the machine itself runs with `Config.params`, whose values nothing in
Lean can evaluate. -/

namespace Sys2Proof

/-- The document version token (R29): "opaque to this core". DESIGN CHOICE: plain data that the engine never
inspects, so that states can be compared (log entry 5). -/
structure Version where
  token : Nat
  deriving DecidableEq, Repr, Inhabited

/-- What paragraph decoding yields (R236): an opaque type. DESIGN CHOICE: plain data that the engine never inspects
(log entry 5). -/
structure Paragraph where
  content : List Nat
  deriving DecidableEq, Repr, Inhabited

/-- A record header as the framing collaborator delivers it (R83, R230): the three values and the number of header
bytes, at least 1 (R231 (2)). -/
structure Header where
  tagId : BitVec 32
  level : BitVec 16
  size : BitVec 32
  hlen : Nat
  hlen_pos : 1 ≤ hlen
  deriving DecidableEq, Repr

/-- A whole record (R83, R234): the tuple `(tag_id, level, size, payload)`. -/
structure Record where
  tagId : BitVec 32
  level : BitVec 16
  size : BitVec 32
  payload : List Byte
  deriving DecidableEq, Repr

/-- The parameter `INFLATE_INCOMPLETE` (R205): `fail` or `allow`. -/
inductive IncompletePolicy where
  /-- a strict decoder: the open incompleteness cases of R205 are `Invalid` -/
  | fail
  /-- a lenient decoder: only an unused codeword actually met is `Invalid` -/
  | allow
  deriving DecidableEq, Repr, Inhabited

/-- The open parameters of the hardware (R8). The constraints the spec puts on them are in the types:
`LPRNG_SH` is 0 to 31, `LPRNG_MASK` is at most 0xFFFF (C1), `hlen` is at least 1, a key and a block are 16 bytes. -/
structure Params where
  /-- `LPRNG_A`, the multiplier (R113) -/
  lprngA : Word
  /-- `LPRNG_C`, the increment (R113) -/
  lprngC : Word
  /-- `LPRNG_SH`, the shift, 0 to 31 (R8, R113) -/
  lprngSh : Fin 32
  /-- `LPRNG_MASK`, at most 0xFFFF (R8, R113) -/
  lprngMask : BitVec 16
  /-- `TAG_DIST_DOC_DATA` (R233) -/
  tagDistDocData : BitVec 32
  /-- `FRAME` as a function of the bytes at and after the cursor (R230, R231 (1)): the header they begin with, or
  `none` where it says `Truncated` -/
  frame : List Byte → Option Header
  /-- `BLOCK_DECRYPT`, key then block (R161) -/
  blockDecrypt : Vector Byte 16 → Vector Byte 16 → Vector Byte 16
  /-- `PARA_DECODE` (R236) -/
  paraDecode : Record → Version → Paragraph
  /-- `INFLATE_INCOMPLETE` (R205) -/
  inflateIncomplete : IncompletePolicy

namespace Config

/-! The open parameters: constants with no body. No proof can see their values (log entries 6, 8, 9, 10, 12). -/

opaque lprngA : Word
opaque lprngC : Word
opaque lprngSh : Fin 32
opaque lprngMask : BitVec 16
opaque tagDistDocData : BitVec 32
opaque frame : List Byte → Option Header
opaque blockDecrypt : Vector Byte 16 → Vector Byte 16 → Vector Byte 16
opaque paraDecode : Record → Version → Paragraph
opaque inflateIncomplete : IncompletePolicy

/-- The parameters the machine runs with. -/
def params : Params where
  lprngA := lprngA
  lprngC := lprngC
  lprngSh := lprngSh
  lprngMask := lprngMask
  tagDistDocData := tagDistDocData
  frame := frame
  blockDecrypt := blockDecrypt
  paraDecode := paraDecode
  inflateIncomplete := inflateIncomplete

end Config
end Sys2Proof
end

