-- ==== Sys2Proof/Machine/State.lean ====
section
/-! DEFINITION. The state of the engine (spec/10_state.md), the requests and answers of the host interface
(spec/30_encoding.md R85), the state after reset (R34), and the ways a step could stop. -/

namespace Sys2Proof.Machine

/-- The named register `x[i]` (R20). -/
inductive Reg where
  | S | ARG | RES | FSM | ERR | CST | MODE | VLD | ICUR | VER
  deriving DecidableEq, Repr

/-- The items that carry a validity bit, in bit order (R23). -/
inductive Item where
  | S | OB | KEY | IN | PLAIN | OUT | VER | RES | ARG
  deriving DecidableEq, Repr

/-- A state of the orchestrator (R24); five of them are the stages in which work is done (R250). -/
inductive Stage where
  | start | keyDerivation | decrypt | decompress | assemble | done | failed
  deriving DecidableEq, Repr

/-- The error kinds (R27, R281). -/
inductive ErrKind where
  | malformedRecord | truncatedStream | decryptionFailure | decompressionFailure | unsupportedVersion
  deriving DecidableEq, Repr

/-- The status of the last command (R28). -/
inductive Status where
  | ok | illegalCommand | useBeforeWrite
  deriving DecidableEq, Repr

/-- One operation of the host (R85). The operand types of `loadOB` and `loadKEY` are exactly 256 and 16 bytes, which
is how the source's "enforced by the caller" is met (R85, R344). -/
inductive HostOp where
  /-- `HostReset` -/
  | reset
  /-- `HostWriteARG` -/
  | writeARG (v : Word)
  /-- `HostSetVER` -/
  | setVER (v : Version)
  /-- `HostLoadIN` -/
  | loadIN (b : List Byte)
  /-- `HostLoadOB` -/
  | loadOB (b : Vector Byte 256)
  /-- `HostLoadKEY` -/
  | loadKEY (b : Vector Byte 16)
  /-- `HostClearKEY` -/
  | clearKEY
  /-- `HostLoadPLAIN` -/
  | loadPLAIN (b : List Byte)
  /-- `HostIssue`: the command byte -/
  | issue (c : Byte)
  /-- `HostRead(x[i])` -/
  | readReg (r : Reg)
  /-- `HostReadKEY` -/
  | readKEY
  /-- `HostReadPLAIN` -/
  | readPLAIN
  /-- `HostReadOUT` -/
  | readOUT
  deriving DecidableEq, Repr

/-- What a host read returns (R85): a register's number, the version token, bytes, or paragraphs. -/
inductive HostValue where
  | number (n : Nat)
  | version (v : Version)
  | bytes (b : List Byte)
  | paragraphs (p : List Paragraph)
  deriving DecidableEq, Repr

/-- The state: the ten registers of R20, the buffers of R30 and the streams of R31 that persist between commands, and
two fields of the model's own for the host's side of R85. -/
@[ext]
structure State where
  /-- `S` = x[0], the PRNG state (R21) -/
  regS : Word
  /-- `ARG` = x[1] (R22) -/
  regArg : Word
  /-- `RES` = x[2] (R22) -/
  regRes : Word
  /-- `FSM` = x[3], the code of an orchestrator state (R24) -/
  fsm : BitVec 3
  /-- `ERR` = x[4], stage in bits 5:3 and kind in bits 2:0 (R27) -/
  err : BitVec 6
  /-- `CST` = x[5] (R28) -/
  cst : BitVec 2
  /-- `MODE` = x[6], bit 0 COMP and bit 1 DIST (R26) -/
  mode : BitVec 2
  /-- `VLD` = x[7], the validity bits (R23) -/
  vld : BitVec 9
  /-- `ICUR` = x[8], the read cursor into `IN` (R20) -/
  icur : Nat
  /-- `VER` = x[9] (R29) -/
  ver : Version
  /-- `OB`, the obfuscation block (R30) -/
  ob : Vector Byte 256
  /-- `KEY`, the cipher key (R30) -/
  key : Vector Byte 16
  /-- `IN`, the input stream (R31) -/
  inp : List Byte
  /-- `PLAIN`, the plain record stream (R31) -/
  plain : List Byte
  /-- `OUT`, the section (R31, R240) -/
  out : List Paragraph
  /-- The model's own: the host's operations still to come, oldest first. DESIGN CHOICE (log entry 1). -/
  hostq : List HostOp
  /-- The model's own: what the last host read returned. DESIGN CHOICE (log entry 2). -/
  reply : Option HostValue
  deriving DecidableEq, Repr

/-- The state after reset (R34, R320): `FSM`, `ERR`, `CST`, `MODE`, `VLD` and `ICUR` are 0. Every other register,
buffer and stream "holds no value": its validity bit is clear, and the contents behind it are a DESIGN CHOICE that no
rule reads (U43, log entry 3). No host operation is pending (log entry 1). -/
def State.reset : State where
  regS := 0
  regArg := 0
  regRes := 0
  fsm := 0
  err := 0
  cst := 0
  mode := 0
  vld := 0
  icur := 0
  ver := ⟨0⟩
  ob := Vector.replicate 256 0
  key := Vector.replicate 16 0
  inp := []
  plain := []
  out := []
  hostq := []
  reply := none

/-- The ways a step can stop with a fault: none. Errors and refusals are effects on the state (R14), and "no other
fault exists": "every command on every input ends in exactly one of completion, error or refusal" (R288, log entry
15). -/
inductive Fault where
  deriving DecidableEq, Repr

/-- The ways a step can be refused. -/
inductive Refusal where
  /-- Raised by an arm of `exec` for an instruction that has no meaning yet; no arm does. Safe: the step stops. -/
  | notModelled (mnemonic : String)
  deriving DecidableEq, Repr

end Sys2Proof.Machine
end

