-- ==== Sys2Proof/Machine/Flags.lean ====
section
/-! DEFINITION. The codes of the status registers and the bits of the flag registers: `FSM` (R24), `ERR` (R27), `CST`
(R28), `MODE` (R26) and `VLD` (R23), all of spec/10_state.md. The engine has no arithmetic condition codes (R25). -/

namespace Sys2Proof.Machine

/-- The `FSM` code of an orchestrator state (R24). -/
def Stage.code : Stage → BitVec 3
  | .start => 0
  | .keyDerivation => 1
  | .decrypt => 2
  | .decompress => 3
  | .assemble => 4
  | .done => 5
  | .failed => 6

/-- The orchestrator state of an `FSM` code; code 7 is never held (R24). -/
def Stage.ofCode (c : BitVec 3) : Option Stage :=
  match c.toNat with
  | 0 => some .start
  | 1 => some .keyDerivation
  | 2 => some .decrypt
  | 3 => some .decompress
  | 4 => some .assemble
  | 5 => some .done
  | 6 => some .failed
  | _ => none

/-- The kind code (R27); 0 is `None`. -/
def ErrKind.code : ErrKind → BitVec 3
  | .malformedRecord => 1
  | .truncatedStream => 2
  | .decryptionFailure => 3
  | .decompressionFailure => 4
  | .unsupportedVersion => 5

/-- The contents of `ERR` for a raised error: stage in bits 5:3, kind in bits 2:0 (R27). -/
def errCode (k : ErrKind) (g : Stage) : BitVec 6 := g.code ++ k.code

/-- The `CST` code (R28). -/
def Status.code : Status → BitVec 2
  | .ok => 0
  | .illegalCommand => 1
  | .useBeforeWrite => 2

/-- The bit of `VLD` that belongs to an item (R23). -/
def Item.bit : Item → Nat
  | .S => 0
  | .OB => 1
  | .KEY => 2
  | .IN => 3
  | .PLAIN => 4
  | .OUT => 5
  | .VER => 6
  | .RES => 7
  | .ARG => 8

/-- `VLD` with one bit alone. -/
def Item.mask (a : Item) : BitVec 9 := 1#9 <<< a.bit

/-- `valid(R)` (R11): the item's validity bit. -/
def State.valid (s : State) (a : Item) : Bool := s.vld.getLsbD a.bit

/-- A write sets the item's validity bit (R11). -/
def State.validate (s : State) (a : Item) : State := { s with vld := s.vld ||| a.mask }

/-- `invalidate(R)` (R11): clear the item's validity bit. What stands behind the bit stays; nothing reads it (log
entry 4). -/
def State.invalidate (s : State) (a : Item) : State := { s with vld := s.vld &&& ~~~a.mask }

/-- `MODE <- CMD[1:0]`: `DIST` (or, for DDP.DECODE, a key supplied) in bit 1, `COMP` in bit 0 (R26, R81). -/
def modeBits (f1 f0 : Bool) : BitVec 2 := BitVec.ofBool f1 ++ BitVec.ofBool f0

/-- The flag `COMP` (R26). -/
def State.comp (s : State) : Bool := s.mode.getLsbD 0

/-- The flag `DIST` (R26). -/
def State.dist (s : State) : Bool := s.mode.getLsbD 1

end Sys2Proof.Machine
end

