-- ==== Sys2Proof/Machine/Ops.lean ====
section
/-! DEFINITION. The named operations over registers and byte sequences: the notation of spec/00_scope.md R10, writes of
registers and buffers (R11), refusing a command (spec/60_exceptions.md R296), and taking an error (R300), which is this
hardware's one exception entry. There is no return from an error: "the entry saved nothing" (R303). -/

namespace Sys2Proof.Machine

/-- `B[a..b)` (R10). -/
def slice (a b : Nat) (l : List Byte) : List Byte := (l.drop a).take (b - a)

/-- The bytes of a sequence of `n` bytes as a buffer of length `n`. -/
def toBuffer (n : Nat) (l : List Byte) : Vector Byte n := Vector.ofFn fun i => l.getD i.val 0

/-- `LE32` (R10): little-endian, the first byte least significant. -/
def le32 (b0 b1 b2 b3 : Byte) : Word := b3 ++ b2 ++ b1 ++ b0

/-- `xor(B, C)` (R10): byte-wise exclusive-or of two sequences of one length. -/
def xorBytes (b c : List Byte) : List Byte := List.zipWith (· ^^^ ·) b c

/-! Writes: the item takes the value and its validity bit is set (R11). -/

/-- `S <- v` -/
def State.writeS (s : State) (v : Word) : State := { s with regS := v }.validate .S

/-- `ARG <- v` -/
def State.writeArg (s : State) (v : Word) : State := { s with regArg := v }.validate .ARG

/-- `RES <- v` -/
def State.writeRes (s : State) (v : Word) : State := { s with regRes := v }.validate .RES

/-- `VER <- v` -/
def State.writeVer (s : State) (v : Version) : State := { s with ver := v }.validate .VER

/-- `OB <- b` -/
def State.writeOB (s : State) (b : Vector Byte 256) : State := { s with ob := b }.validate .OB

/-- `KEY <- b` -/
def State.writeKey (s : State) (b : Vector Byte 16) : State := { s with key := b }.validate .KEY

/-- `IN <- b; ICUR <- 0` (R85); the bit `INV` belongs to both (R23). -/
def State.writeIn (s : State) (b : List Byte) : State := { s with inp := b, icur := 0 }.validate .IN

/-- `PLAIN <- b` -/
def State.writePlain (s : State) (b : List Byte) : State := { s with plain := b }.validate .PLAIN

/-- `OUT <- p` -/
def State.writeOut (s : State) (p : List Paragraph) : State := { s with out := p }.validate .OUT

/-- `FSM <- g` (R13) -/
def State.setFsm (s : State) (g : Stage) : State := { s with fsm := g.code }

/-- `ERR <- v` -/
def State.setErr (s : State) (v : BitVec 6) : State := { s with err := v }

/-- `CST <- c` -/
def State.setCst (s : State) (c : Status) : State := { s with cst := c.code }

/-- `MODE <- v` -/
def State.setMode (s : State) (v : BitVec 2) : State := { s with mode := v }

/-- `ICUR <- n` -/
def State.setIcur (s : State) (n : Nat) : State := { s with icur := n }

/-- Refusal (R296): "`CST <- reason` and nothing else". -/
def State.refuse (s : State) (reason : Status) : State := s.setCst reason

/-- Error entry, the effect of `raise k(g)` (R300). `secRun` says whether the running command is a SEC.RUN, which
alone owns `FSM`. -/
def State.errorEntry (secRun : Bool) (k : ErrKind) (g : Stage) (s : State) : State :=
  let s := s.setErr (errCode k g)
  let s := if secRun then s.setFsm .failed else s
  let s := (((s.invalidate .OUT).invalidate .PLAIN).invalidate .IN).invalidate .KEY
  s.setCst .ok

/-- How a stage inside a command ends: with a value and the state it leaves, or by raising an error in the state the
stages so far have left (R13, R301). -/
inductive StageOut (α : Type) where
  | ok (v : α) (s : State)
  | err (k : ErrKind) (g : Stage) (s : State)

/-- Do the next stage, or stay with the error: "the first that fails ends the command" (R292). -/
def StageOut.andThen {α β : Type} (x : StageOut α) (f : α → State → StageOut β) : StageOut β :=
  match x with
  | .ok v s => f v s
  | .err k g s => .err k g s

/-- The end of a command: `CST <- Ok` after completion, or the error entry (R300). -/
def StageOut.finish {α : Type} (secRun : Bool) (x : StageOut α) : State :=
  match x with
  | .ok _ s => s.setCst .ok
  | .err k g s => s.errorEntry secRun k g

end Sys2Proof.Machine
end

