-- ==== Sys2Proof/Machine/Operands.lean ====
section
/-! DEFINITION. The operand forms: the numbered register view `x[i]` (spec/10_state.md R20), the sequential reads of the
input stream (spec/00_scope.md R12), the byte buffers as index spaces (R12, R31), and the validity requirement each
command puts on its operands (spec/60_exceptions.md R296). -/

namespace Sys2Proof.Machine

/-- The register `x[i]` (R20). -/
def Reg.ofIndex : Nat → Option Reg
  | 0 => some .S
  | 1 => some .ARG
  | 2 => some .RES
  | 3 => some .FSM
  | 4 => some .ERR
  | 5 => some .CST
  | 6 => some .MODE
  | 7 => some .VLD
  | 8 => some .ICUR
  | 9 => some .VER
  | _ => none

/-- The item whose validity bit guards a register; `FSM`, `ERR`, `CST`, `MODE` and `VLD` have none, and `ICUR` shares
the bit of `IN` (R23). -/
def Reg.item : Reg → Option Item
  | .S => some .S
  | .ARG => some .ARG
  | .RES => some .RES
  | .ICUR => some .IN
  | .VER => some .VER
  | .FSM | .ERR | .CST | .MODE | .VLD => none

/-- The contents of a register, whatever its validity bit says. -/
def State.regValue (s : State) : Reg → HostValue
  | .S => .number s.regS.toNat
  | .ARG => .number s.regArg.toNat
  | .RES => .number s.regRes.toNat
  | .FSM => .number s.fsm.toNat
  | .ERR => .number s.err.toNat
  | .CST => .number s.cst.toNat
  | .MODE => .number s.mode.toNat
  | .VLD => .number s.vld.toNat
  | .ICUR => .number s.icur
  | .VER => .version s.ver

/-- The read `x[i]`: the register's contents, or nothing when its validity bit is clear (R11, R85). -/
def State.readReg (s : State) (r : Reg) : Option HostValue :=
  match r.item with
  | none => some (s.regValue r)
  | some a => if s.valid a then some (s.regValue r) else none

/-- A byte buffer or stream that persists between commands (R31). -/
inductive Space where
  | OB | KEY | IN | PLAIN
  deriving DecidableEq, Repr

/-- The bytes of a space. -/
def State.spaceBytes (s : State) : Space → List Byte
  | .OB => s.ob.toList
  | .KEY => s.key.toList
  | .IN => s.inp
  | .PLAIN => s.plain

/-- The byte at an index of a space; outside its index range (R31) there is none. -/
def State.byteAt (s : State) (p : Space) (i : Nat) : Option Byte := (s.spaceBytes p)[i]?

/-- `StreamAvail()` (R12): the bytes of `IN` at and after the cursor. -/
def State.streamAvail (s : State) : Nat := s.inp.length - s.icur

/-- The bytes `StreamRead(n)` returns (R12). -/
def State.streamBytes (s : State) (n : Nat) : List Byte := slice s.icur (s.icur + n) s.inp

/-- The cursor after `StreamRead(n)` (R12). -/
def State.streamAdvance (s : State) (n : Nat) : State := s.setIcur (s.icur + n)

/-- The items a command requires to be valid (R296). -/
def requiredItems : Instr → List Item
  | .lprngNew => [.ARG]
  | .lprngDraw => [.S]
  | .kdDerive => [.OB]
  | .ddpDecodePU | .ddpDecodePC => [.IN]
  | .ddpDecodeKU | .ddpDecodeKC => [.IN, .KEY]
  | .rpaAssemble => [.PLAIN, .VER]
  | .secRunPU | .secRunPC | .secRunDU | .secRunDC => [.IN, .VER]

/-- The `require` line of a command (R296): every item it names is valid. -/
def State.operandsValid (s : State) (i : Instr) : Bool := (requiredItems i).all s.valid

/-- A command whose `require` line fails is refused with `UseBeforeWrite` and does nothing else (R296). -/
def State.require (s : State) (i : Instr) (effect : State → State) : State :=
  if s.operandsValid i then effect s else s.refuse .useBeforeWrite

end Sys2Proof.Machine
end

