-- ==== Sys2Proof/Machine/Assembly.lean ====
section
/-! DEFINITION. The record-stream parser: RPA.ASSEMBLE, one record, and the call of the framing collaborator
(spec/44_record_assembly.md). -/

namespace Sys2Proof.Machine

/-- `FRAME(B, cur)` (R230), called on the bytes at and after the cursor (R231 (1)). `Truncated` "means that fewer bytes
remain at `cur` than the header needs", so a header longer than the bytes that remain is `Truncated` too (log entry
8). -/
def frameAt (P : Params) (rest : List Byte) : Option Header :=
  match P.frame rest with
  | some h => if h.hlen ≤ rest.length then some h else none
  | none => none

/-- `rpa.next` (R234): the paragraph of the record at `rc` and the cursor after it, or `none` where the rule raises
`TruncatedStream(Assemble)`. The comparison is on naturals. -/
def rpaNext (P : Params) (ver : Version) (plain : List Byte) (rc : Nat) : Option (Paragraph × Nat) :=
  match frameAt P (plain.drop rc) with
  | none => none
  | some h =>
    if h.size.toNat > plain.length - (rc + h.hlen) then none
    else
      let payload := slice (rc + h.hlen) (rc + h.hlen + h.size.toNat) plain
      some (P.paraDecode ⟨h.tagId, h.level, h.size, payload⟩ ver, rc + h.hlen + h.size.toNat)

/-- `while RC < len(PLAIN): rpa.next` (R238), making at most `n` passes; `outq` is `OUTQ`. Each pass adds at least 1
to `RC`, so `len(PLAIN)` passes are enough. -/
def rpaLoop (P : Params) (ver : Version) (plain : List Byte) : Nat → Nat → List Paragraph → Option (List Paragraph)
  | 0, rc, outq => if rc < plain.length then none else some outq
  | n + 1, rc, outq =>
    if rc < plain.length then
      match rpaNext P ver plain rc with
      | none => none
      | some (p, rc') => rpaLoop P ver plain n rc' (outq ++ [p])
    else some outq

/-- The paragraphs of a plain stream, or `none` when a record is cut short (R238). -/
def assemble (P : Params) (ver : Version) (plain : List Byte) : Option (List Paragraph) :=
  rpaLoop P ver plain plain.length 0 []

/-- The stage that splits `PLAIN` into records and writes `OUT` once, at the end (R238, R260). -/
def rpaStage (P : Params) (s : State) : StageOut Unit :=
  match assemble P s.ver s.plain with
  | some out => .ok () ((s.writeOut out).invalidate .PLAIN)
  | none => .err .truncatedStream .assemble s

/-- RPA.ASSEMBLE (R238). -/
def rpaAssemble (P : Params) (s : State) : State :=
  s.require .rpaAssemble fun s => StageOut.finish false (rpaStage P (s.setErr 0))

/-- RPA.ASSEMBLE, 0x40 (R238). -/
def execRpaAssemble (s : State) : Host.Outcome State Fault Refusal := .next (rpaAssemble Config.params s)

end Sys2Proof.Machine
end

