-- ==== Sys2Proof/Machine/Inflate.lean ====
section
/-! DEFINITION. The raw-deflate decompressor `INFLATE` (spec/43_inflate.md). Its contract R180 is the source's; all else
is the spec's general-knowledge passage G3 (log entry 11). The bit position `BP` and the output `OUTB` live inside one
call (R181): the bits not yet read stand for `BP`, and the output is held newest byte first. Every loop is structural on
fuel; each pass of a loop reads at least one bit, so fuel equal to the number of bits left never runs out before the
bits do (R340), and running out of bits is `Invalid` anyway (R182). -/

namespace Sys2Proof.Machine

/-- Bits still to be read, next first. -/
abbrev Bits := List Bool

/-- The bits of a byte in reading order, bit 0 first (R182). -/
def byteBits (b : Byte) : Bits := (List.range 8).map b.getLsbD

/-- The bit stream of a byte sequence (R182). -/
def bitStream (pt : List Byte) : Bits := pt.flatMap byteBits

/-- `bits(n)` (R182): the first bit read is the least significant; `none` when the input is exhausted. -/
def readBits : Nat → Bits → Option (Nat × Bits)
  | 0, r => some (0, r)
  | _ + 1, [] => none
  | n + 1, b :: r =>
    match readBits n r with
    | none => none
    | some (v, r') => some (b.toNat + 2 * v, r')

/-- `n` values of `w` bits each, in reading order. -/
def readMany (w : Nat) : Nat → Bits → Option (List Nat × Bits)
  | 0, r => some ([], r)
  | n + 1, r => do
    let (v, r) ← readBits w r
    let (vs, r) ← readMany w n r
    return (v :: vs, r)

/-- The bits from the next byte boundary on (R186): the stream is a whole number of bytes, so the boundary is where the
number of bits left is a multiple of 8. -/
def skipToByte (r : Bits) : Bits := r.drop (r.length % 8)

/-- A canonical code, one entry for each length from 1 to 15: the first codeword of that length and the symbols of that
length in increasing order, whose codewords follow one another (R193). -/
abbrev HuffCode := List (Nat × List Nat)

/-- `next[L]` of R193 before any symbol is assigned; `count[0]` is taken as 0. -/
def firstCodeword (lens : List Nat) : Nat → Nat
  | 0 => 0
  | l + 1 => 2 * (firstCodeword lens l + if l = 0 then 0 else lens.count l)

/-- The symbols of one length, in increasing order. -/
def symbolsOfLength (lens : List Nat) (l : Nat) : List Nat :=
  (lens.zipIdx.filter fun p => p.1 == l).map Prod.snd

/-- The canonical code of a list of lengths (R193). -/
def canonicalCode (lens : List Nat) : HuffCode :=
  (List.range 15).map fun l => (firstCodeword lens (l + 1), symbolsOfLength lens (l + 1))

/-- The sum of `2^(15 - len)` over the used symbols; `left` of R193 is `2^15` less this. -/
def kraftSum (lens : List Nat) : Nat := (lens.map fun l => if l = 0 then 0 else 2 ^ (15 - l)).sum

/-- `decode` (R194), from the entries of the lengths still to be tried and the code read so far; the first bit read is
the most significant. -/
def decodeSymbolFrom : HuffCode → Nat → Bits → Option (Nat × Bits)
  | [], _, _ => none
  | _ :: _, _, [] => none
  | (first, syms) :: longer, code, b :: r =>
    let code := 2 * code + b.toNat
    if first ≤ code then
      match syms[code - first]? with
      | some sym => some (sym, r)
      | none => decodeSymbolFrom longer code r
    else decodeSymbolFrom longer code r

/-- `decode` (R194): one symbol, or `none` when the bits match no codeword or the input is exhausted. -/
def decodeSymbol (c : HuffCode) (r : Bits) : Option (Nat × Bits) := decodeSymbolFrom c 0 r

/-- What a list of code lengths is for: the code-length code, the literal/length code or the distance code. -/
inductive CodeUse where
  | codeLength | litLen | distance
  deriving DecidableEq, Repr

/-- The lengths of the used symbols. -/
def usedLengths (lens : List Nat) : List Nat := lens.filter (· != 0)

/-- Whether an incomplete code is valid under every setting of `INFLATE_INCOMPLETE`: a distance code with no symbol
(R204) or with one symbol of length 1 (R203), and a literal/length code that is one code of length 1, which the strict
decoder of R205 (b) accepts too (log entry 12). -/
def incompleteByDesign (u : CodeUse) (lens : List Nat) : Bool :=
  match u with
  | .codeLength => false
  | .litLen => usedLengths lens == [1]
  | .distance => usedLengths lens == [] || usedLengths lens == [1]

/-- Whether the stream goes on with this code: over-subscribed lengths never (R193), a complete code always, an
incomplete one by R203 to R205. -/
def codeAccepted (pol : IncompletePolicy) (u : CodeUse) (lens : List Nat) : Bool :=
  if kraftSum lens > 2 ^ 15 then false
  else if kraftSum lens = 2 ^ 15 then true
  else incompleteByDesign u lens || pol == .allow

/-- `LEXT` and `LBASE` of the length symbols 257 to 285 (R189). -/
def lengthTable : List (Nat × Nat) :=
  [(0, 3), (0, 4), (0, 5), (0, 6), (0, 7), (0, 8), (0, 9), (0, 10), (1, 11), (1, 13)] ++
  [(1, 15), (1, 17), (2, 19), (2, 23), (2, 27), (2, 31), (3, 35), (3, 43), (3, 51), (3, 59)] ++
  [(4, 67), (4, 83), (4, 99), (4, 115), (5, 131), (5, 163), (5, 195), (5, 227), (0, 258)]

/-- `DEXT` and `DBASE` of the distance symbols 0 to 29 (R190). -/
def distanceTable : List (Nat × Nat) :=
  [(0, 1), (0, 2), (0, 3), (0, 4), (1, 5), (1, 7), (2, 9), (2, 13), (3, 17), (3, 25)] ++
  [(4, 33), (4, 49), (5, 65), (5, 97), (6, 129), (6, 193), (7, 257), (7, 385), (8, 513), (8, 769)] ++
  [(9, 1025), (9, 1537), (10, 2049), (10, 3073), (11, 4097), (11, 6145), (12, 8193), (12, 12289)] ++
  [(13, 16385), (13, 24577)]

/-- The copy of R191, byte by byte from the growing output; `out` is newest first, so the byte at distance `dist` is
at index `dist - 1`. -/
def copyMatch (dist : Nat) : Nat → List Byte → List Byte
  | 0, out => out
  | n + 1, out => copyMatch dist n (out.getD (dist - 1) 0 :: out)

/-- The length and distance of a match whose length symbol is `sym` (R188): `none` for the symbols that never occur in
valid data. -/
def readMatch (dd : HuffCode) (sym : Nat) (r : Bits) : Option (Nat × Nat × Bits) := do
  let (lext, lbase) ← lengthTable[sym - 257]?
  let (e, r) ← readBits lext r
  let (dsym, r) ← decodeSymbol dd r
  let (dext, dbase) ← distanceTable[dsym]?
  let (d, r) ← readBits dext r
  return (lbase + e, dbase + d, r)

/-- The body of a compressed block (R188). -/
def inflateBody (ll dd : HuffCode) : Nat → Bits → List Byte → Option (List Byte × Bits)
  | 0, _, _ => none
  | n + 1, r, out => do
    let (sym, r) ← decodeSymbol ll r
    if sym < 256 then inflateBody ll dd n r (BitVec.ofNat 8 sym :: out)
    else if sym = 256 then some (out, r)
    else
      let (length, dist, r) ← readMatch dd sym r
      if dist > out.length then none
      else inflateBody ll dd n r (copyMatch dist length out)

/-- The code lengths of the fixed literal/length code (R192). -/
def fixedLitLenLengths : List Nat :=
  List.replicate 144 8 ++ List.replicate 112 9 ++ List.replicate 24 7 ++ List.replicate 8 8

/-- The code lengths of the fixed distance code (R192). -/
def fixedDistLengths : List Nat := List.replicate 32 5

/-- A stored block (R186). -/
def inflateStored (r : Bits) (out : List Byte) : Option (List Byte × Bits) := do
  let (len, r) ← readBits 16 (skipToByte r)
  let (nlen, r) ← readBits 16 r
  if nlen ≠ len ^^^ 0xFFFF then none
  else
    let (bytes, r) ← readMany 8 len r
    return ((bytes.map (BitVec.ofNat 8)).reverse ++ out, r)

/-- `CLORD` (R195). -/
def codeLengthOrder : List Nat := [16, 17, 18, 0, 8, 7, 9, 6, 10, 5, 11, 4, 12, 3, 13, 2, 14, 1, 15]

/-- `cl[CLORD[i]] <- bits(3)` for the values read, all others 0 (R195). -/
def codeLengthLengths (vals : List Nat) : List Nat :=
  (List.range 19).map fun sym => vals.getD (codeLengthOrder.idxOf sym) 0

/-- One code-length symbol and the lengths it appends to `lens` (R196). -/
def readLengths1 (cl : HuffCode) (lens : List Nat) (r : Bits) : Option (List Nat × Bits) := do
  let (sym, r) ← decodeSymbol cl r
  if sym < 16 then return ([sym], r)
  else if sym = 16 then
    let last ← lens.getLast?
    let (e, r) ← readBits 2 r
    return (List.replicate (3 + e) last, r)
  else if sym = 17 then
    let (e, r) ← readBits 3 r
    return (List.replicate (3 + e) 0, r)
  else
    let (e, r) ← readBits 7 r
    return (List.replicate (11 + e) 0, r)

/-- The one sequence of `total` code lengths (R196); every pass appends at least one length. -/
def readLengths (cl : HuffCode) (total : Nat) : Nat → List Nat → Bits → Option (List Nat × Bits)
  | 0, lens, r => if lens.length < total then none else some (lens, r)
  | n + 1, lens, r =>
    if lens.length < total then do
      let (more, r) ← readLengths1 cl lens r
      if (lens ++ more).length > total then none
      else readLengths cl total n (lens ++ more) r
    else some (lens, r)

/-- Case (d) of R205: `HLIT > 286` or `HDIST > 30` under the strict decoder. -/
def tooManyCodes (pol : IncompletePolicy) (hlit hdist : Nat) : Bool :=
  pol == .fail && (hlit > 286 || hdist > 30)

/-- The header of a dynamic block (R195, R196, R197): the literal/length code and the distance code. -/
def readDynamicHeader (pol : IncompletePolicy) (r : Bits) : Option (HuffCode × HuffCode × Bits) := do
  let (hlit, r) ← readBits 5 r
  let (hdist, r) ← readBits 5 r
  let (hclen, r) ← readBits 4 r
  let hlit := hlit + 257
  let hdist := hdist + 1
  if tooManyCodes pol hlit hdist then none
  else
    let (vals, r) ← readMany 3 (hclen + 4) r
    let cl := codeLengthLengths vals
    if !codeAccepted pol .codeLength cl then none
    else
      let (lens, r) ← readLengths (canonicalCode cl) (hlit + hdist) (hlit + hdist) [] r
      let ll := lens.take hlit
      let dd := lens.drop hlit
      if ll.getD 256 0 = 0 then none
      else if !(codeAccepted pol .litLen ll && codeAccepted pol .distance dd) then none
      else return (canonicalCode ll, canonicalCode dd, r)

/-- One block after its header bits, by `BTYPE` (R183); type 3 is reserved (R187). -/
def inflateBlock (pol : IncompletePolicy) (btype : Nat) (r : Bits) (out : List Byte) : Option (List Byte × Bits) :=
  match btype with
  | 0 => inflateStored r out
  | 1 => inflateBody (canonicalCode fixedLitLenLengths) (canonicalCode fixedDistLengths) r.length r out
  | 2 => do
    let (ll, dd, r) ← readDynamicHeader pol r
    inflateBody ll dd r.length r out
  | _ => none

/-- The block loop (R183): until the block with `BFINAL = 1`; whatever follows it is ignored (R184). -/
def inflateBlocks (pol : IncompletePolicy) : Nat → Bits → List Byte → Option (List Byte)
  | 0, _, _ => none
  | n + 1, r, out => do
    let (bfinal, r) ← readBits 1 r
    let (btype, r) ← readBits 2 r
    let (out, r) ← inflateBlock pol btype r out
    if bfinal = 1 then some out else inflateBlocks pol n r out

/-- `INFLATE` (R180): `some` for `Ok`, `none` for `Invalid`. -/
def inflate (pol : IncompletePolicy) (pt : List Byte) : Option (List Byte) :=
  let r := bitStream pt
  (inflateBlocks pol r.length r []).map List.reverse

end Sys2Proof.Machine
end

