-- ==== Sys2Proof/Machine/Ddp.lean ====
section
/-! DEFINITION. The decrypt/decompress pipeline: the four DDP.DECODE commands and their stages
(spec/42_decrypt_decompress.md). -/

namespace Sys2Proof.Machine

/-- `ddp.decrypt` (R163): each 16-byte block on its own with the same key, in stream order. -/
def ecbDecrypt (P : Params) (key : Vector Byte 16) (ct : List Byte) : List Byte :=
  (List.range (ct.length / 16)).flatMap fun b =>
    (P.blockDecrypt key (toBuffer 16 (slice (16 * b) (16 * b + 16) ct))).toList

/-- `ddp.take` (R162): the remainder of the stream, and with a key present the alignment check on all of it before any
block is decrypted. -/
def ddpTake (keyed : Bool) (s : State) : StageOut (List Byte) :=
  let n := s.streamAvail
  let ct := s.streamBytes n
  let s := s.streamAdvance n
  if keyed && ct.length % 16 != 0 then .err .decryptionFailure .decrypt s else .ok ct s

/-- The plaintext: with a key, decrypt (R163) and drop the key (R172); with none, the bytes are the plaintext (R164). -/
def ddpDecrypt (P : Params) (keyed : Bool) (ct : List Byte) (s : State) : StageOut (List Byte) :=
  if keyed then .ok (ecbDecrypt P s.key ct) (s.invalidate .KEY) else .ok ct s

/-- `ddp.decompress` (R165): `PLAIN` takes the inflated plaintext, or the plaintext unchanged. -/
def ddpDecompress (P : Params) (comp : Bool) (pt : List Byte) (s : State) : StageOut Unit :=
  if comp then
    match inflate P.inflateIncomplete pt with
    | some bytes => .ok () (s.writePlain bytes)
    | none => .err .decompressionFailure .decompress s
  else .ok () (s.writePlain pt)

/-- The common form of R167 to R170: `keyed` is `F1` and `comp` is `F0` of the command byte. -/
def ddpDecode (P : Params) (keyed comp : Bool) (s : State) : State :=
  let s := (s.setMode (modeBits keyed comp)).setErr 0
  StageOut.finish false <|
    (ddpTake keyed s).andThen fun ct s =>
    (ddpDecrypt P keyed ct s).andThen fun pt s =>
    (ddpDecompress P comp pt s).andThen fun _ s =>
    .ok () (s.invalidate .IN)

/-- DDP.DECODE.PU (R167). -/
def ddpDecodePU (P : Params) (s : State) : State := s.require .ddpDecodePU (ddpDecode P false false)

/-- DDP.DECODE.PC (R168). -/
def ddpDecodePC (P : Params) (s : State) : State := s.require .ddpDecodePC (ddpDecode P false true)

/-- DDP.DECODE.KU (R169). -/
def ddpDecodeKU (P : Params) (s : State) : State := s.require .ddpDecodeKU (ddpDecode P true false)

/-- DDP.DECODE.KC (R170). -/
def ddpDecodeKC (P : Params) (s : State) : State := s.require .ddpDecodeKC (ddpDecode P true true)

/-- DDP.DECODE.PU, 0x30 (R167). -/
def execDdpDecodePU (s : State) : Host.Outcome State Fault Refusal := .next (ddpDecodePU Config.params s)

/-- DDP.DECODE.PC, 0x31 (R168). -/
def execDdpDecodePC (s : State) : Host.Outcome State Fault Refusal := .next (ddpDecodePC Config.params s)

/-- DDP.DECODE.KU, 0x32 (R169). -/
def execDdpDecodeKU (s : State) : Host.Outcome State Fault Refusal := .next (ddpDecodeKU Config.params s)

/-- DDP.DECODE.KC, 0x33 (R170). -/
def execDdpDecodeKC (s : State) : Host.Outcome State Fault Refusal := .next (ddpDecodeKC Config.params s)

end Sys2Proof.Machine
end

