-- ==== Sys2Proof/Machine/Lprng.lean ====
section
/-! DEFINITION. The Legacy PRNG unit: LPRNG.NEW and LPRNG.DRAW (spec/40_lprng.md). -/

namespace Sys2Proof.Machine

/-- `next(S) = add32(mul32(S, LPRNG_A), LPRNG_C)` (R113): multiplier, then increment, modulo 2^32. PRESUMED: the form
of the step is the spec's general-knowledge passage G1 (log entry 7). -/
def lprngNext (P : Params) (v : Word) : Word := v * P.lprngA + P.lprngC

/-- `out(S') = (S' >> LPRNG_SH) & LPRNG_MASK` (R113): logical shift, then mask; the result is a u32 (R115). -/
def lprngOut (P : Params) (v : Word) : Word := (v >>> P.lprngSh.val) &&& P.lprngMask.setWidth 32

/-- LPRNG.NEW (R114): the state is the seed; no scrambling, no draw. -/
def lprngNew (s : State) : State :=
  s.require .lprngNew fun s => (s.writeS s.regArg).setCst .ok

/-- LPRNG.DRAW (R115): advance `S`, and land in `RES` the value taken from the new `S`. -/
def lprngDraw (P : Params) (s : State) : State :=
  s.require .lprngDraw fun s =>
    let v := lprngNext P s.regS
    ((s.writeS v).writeRes (lprngOut P v)).setCst .ok

/-- LPRNG.NEW, 0x10 (R114). -/
def execLprngNew (s : State) : Host.Outcome State Fault Refusal := .next (lprngNew s)

/-- LPRNG.DRAW, 0x11 (R115). -/
def execLprngDraw (s : State) : Host.Outcome State Fault Refusal := .next (lprngDraw Config.params s)

end Sys2Proof.Machine
end

