-- ==== Sys2Proof/Machine/KeyDerivation.lean ====
section
/-! DEFINITION. The key derivation unit: KD.DERIVE and its steps (spec/41_key_derivation.md). The transients `SEED`,
`PI`, `FILL`, `TIMES`, `OFF`, `PAD`, `RB` and `KM` are local values (spec/10_state.md R30, log entry 16). -/

namespace Sys2Proof.Machine

/-- `kd.seed` (R131): `SEED <- LE32(OB[0], OB[1], OB[2], OB[3])`. -/
def kdSeed (ob : Vector Byte 256) : Word := le32 ob[0] ob[1] ob[2] ob[3]

/-- The two values pad generation carries: the PRNG state `S` and the pad slots written so far, so that `PI` is the
length of `pad` (R132). -/
structure PadState where
  prng : Word
  pad : List Byte
  deriving DecidableEq, Repr

/-- `kd.run` (R133): two draws, the fill first and the count second, then `min(TIMES, 256 - PI)` slots take the
fill. -/
def kdRun (P : Params) (p : PadState) : PadState :=
  let s1 := lprngNext P p.prng
  let fill : Byte := (lprngOut P s1 &&& 0xFF).setWidth 8
  let s2 := lprngNext P s1
  let times := (lprngOut P s2 &&& 0x0F).toNat + 1
  { prng := s2, pad := p.pad ++ List.replicate (min times (256 - p.pad.length)) fill }

/-- `while PI < 256: kd.run` (R132), making at most `n` runs. -/
def kdRuns (P : Params) : Nat → PadState → PadState
  | 0, p => p
  | n + 1, p => if p.pad.length < 256 then kdRuns P n (kdRun P p) else p

/-- `kd.padgen` (R132): seed the PRNG and run until the pad is full. Every run writes at least one slot, so 256 runs
are enough (R134). -/
def kdPadgen (P : Params) (seed : Word) : PadState := kdRuns P 256 { prng := seed, pad := [] }

/-- `kd.xor` (R136): the recovered block `RB`, all 256 lanes. -/
def kdXor (ob : Vector Byte 256) (pad : List Byte) : List Byte := xorBytes ob.toList pad

/-- `kd.offset` (R137): `OFF <- (SEED & 0xF) + 4`, from the seed and not from `S` (R333). -/
def kdOffset (seed : Word) : Nat := (seed &&& 0xF).toNat + 4

/-- `kd.window` (R138): the key-material window `KM = RB[OFF .. OFF + 80)`. -/
def kdWindow (off : Nat) (rb : List Byte) : List Byte := slice off (off + 80) rb

/-- `kd.key` (R139): the first 16 bytes of the window. -/
def kdKey (km : List Byte) : Vector Byte 16 := toBuffer 16 km

/-- The key that steps 1 to 6 derive from a block (R130): a function of the block and the PRNG parameters (R140). -/
def deriveKey (P : Params) (ob : Vector Byte 256) : Vector Byte 16 :=
  let seed := kdSeed ob
  let rb := kdXor ob (kdPadgen P seed).pad
  kdKey (kdWindow (kdOffset seed) rb)

/-- The PRNG state after the last draw of the last run; it stands behind a cleared validity bit (R141, U45). -/
def deriveLastS (P : Params) (ob : Vector Byte 256) : Word := (kdPadgen P (kdSeed ob)).prng

/-- Steps 1 to 6 and `kd.retire` (R130, R141): `KEY` holds the key, `OB` is unchanged, `S` was advanced through the
pad's draws and is invalidated. -/
def State.keyDerivation (P : Params) (s : State) : State :=
  ((s.writeS (deriveLastS P s.ob)).writeKey (deriveKey P s.ob)).invalidate .S

/-- KD.DERIVE (R130). -/
def kdDerive (P : Params) (s : State) : State :=
  s.require .kdDerive fun s => (s.keyDerivation P).setCst .ok

/-- KD.DERIVE, 0x20 (R130). -/
def execKdDerive (s : State) : Host.Outcome State Fault Refusal := .next (kdDerive Config.params s)

end Sys2Proof.Machine
end

