-- ==== Sys2Proof/Machine/Orchestrator.lean ====
section
/-! DEFINITION. The section orchestrator: the state machine on `FSM` and the four SEC.RUN commands
(spec/45_orchestrator.md). The plaintext `PT` is a transient handed from stage to stage (spec/10_state.md R31). -/

namespace Sys2Proof.Machine

/-- The stage after the plaintext is at hand: `Decompress` if `COMP = 1`; otherwise `PLAIN <- PT` is done on the edge
into `Assemble` (R257, R258, R259). -/
def plaintextReady (pt : List Byte) (s : State) : StageOut (List Byte) :=
  if s.comp then .ok pt (s.setFsm .decompress) else .ok pt ((s.writePlain pt).setFsm .assemble)

/-- The payload of the leading record into `OB` (R255). -/
def startPayload (s : State) : StageOut (List Byte) :=
  if s.streamAvail < 256 then .err .truncatedStream .start s
  else .ok [] (((s.writeOB (toBuffer 256 (s.streamBytes 256))).streamAdvance 256).setFsm .keyDerivation)

/-- The checks on the leading record, tag then size; `level` is not checked (R254). -/
def startValidate (P : Params) (h : Header) (s : State) : StageOut (List Byte) :=
  if h.tagId ≠ P.tagDistDocData then .err .malformedRecord .start s
  else if h.size ≠ 256 then .err .malformedRecord .start s
  else startPayload s

/-- `Start`, distributed: pull the leading record's header (R253), validate it, load its payload. -/
def startDistributed (P : Params) (s : State) : StageOut (List Byte) :=
  match frameAt P (s.inp.drop s.icur) with
  | none => .err .truncatedStream .start s
  | some h => startValidate P h (s.streamAdvance h.hlen)

/-- `Start`, plain: the remaining stream bytes are already plaintext (R258). -/
def startPlain (s : State) : StageOut (List Byte) :=
  let n := s.streamAvail
  plaintextReady (s.streamBytes n) (s.streamAdvance n)

/-- One transition of the state machine (R250): the work of the stage `FSM` names, and `FSM` moved on. `Done` and
`Failed` rest, and so does code 7, which is never held (R24, log entry 21). -/
def orchStep (P : Params) (pt : List Byte) (s : State) : StageOut (List Byte) :=
  match Stage.ofCode s.fsm with
  | some .start => if s.dist then startDistributed P s else startPlain s
  | some .keyDerivation => .ok pt ((s.keyDerivation P).setFsm .decrypt)
  | some .decrypt =>
    (ddpTake true s).andThen fun ct s =>
    (ddpDecrypt P true ct s).andThen plaintextReady
  | some .decompress =>
    (ddpDecompress P true pt s).andThen fun _ s => .ok pt (s.setFsm .assemble)
  | some .assemble =>
    (rpaStage P s).andThen fun _ s => .ok pt ((s.invalidate .IN).setFsm .done)
  | some .done | some .failed | none => .ok pt s

/-- `n` transitions, ending early at an error. No stage is entered twice (R250), so five reach `Done`. -/
def orchRun (P : Params) : Nat → List Byte → State → StageOut (List Byte)
  | 0, pt, s => .ok pt s
  | n + 1, pt, s => (orchStep P pt s).andThen (orchRun P n)

/-- Entry, common to the four commands (R251). -/
def secEntry (dist comp : Bool) (s : State) : State :=
  ((((s.setMode (modeBits dist comp)).setFsm .start).setErr 0).invalidate .OUT).invalidate .PLAIN

/-- The common form of R263 to R266: entry, then the state machine to its end; an error takes the entry of R300 with
`FSM <- Failed` (R262). -/
def secRun (P : Params) (dist comp : Bool) (s : State) : State :=
  StageOut.finish true (orchRun P 5 [] (secEntry dist comp s))

/-- SEC.RUN.PU (R263). -/
def secRunPU (P : Params) (s : State) : State := s.require .secRunPU (secRun P false false)

/-- SEC.RUN.PC (R264). -/
def secRunPC (P : Params) (s : State) : State := s.require .secRunPC (secRun P false true)

/-- SEC.RUN.DU (R265). -/
def secRunDU (P : Params) (s : State) : State := s.require .secRunDU (secRun P true false)

/-- SEC.RUN.DC (R266). -/
def secRunDC (P : Params) (s : State) : State := s.require .secRunDC (secRun P true true)

/-- SEC.RUN.PU, 0x50 (R263). -/
def execSecRunPU (s : State) : Host.Outcome State Fault Refusal := .next (secRunPU Config.params s)

/-- SEC.RUN.PC, 0x51 (R264). -/
def execSecRunPC (s : State) : Host.Outcome State Fault Refusal := .next (secRunPC Config.params s)

/-- SEC.RUN.DU, 0x52 (R265). -/
def execSecRunDU (s : State) : Host.Outcome State Fault Refusal := .next (secRunDU Config.params s)

/-- SEC.RUN.DC, 0x53 (R266). -/
def execSecRunDC (s : State) : Host.Outcome State Fault Refusal := .next (secRunDC Config.params s)

end Sys2Proof.Machine
end

