-- ==== Sys2Proof/Machine/Dispatch.lean ====
section
/-! DEFINITION. The meaning of each command: one arm per constructor of Instr, in the order of spec/opcode_table.json. -/

namespace Sys2Proof.Machine

def exec (i : Instr) (s : State) : Host.Outcome State Fault Refusal :=
  match i with
  | .lprngNew => Sys2Proof.Machine.execLprngNew s
  | .lprngDraw => Sys2Proof.Machine.execLprngDraw s
  | .kdDerive => Sys2Proof.Machine.execKdDerive s
  | .ddpDecodePU => Sys2Proof.Machine.execDdpDecodePU s
  | .ddpDecodePC => Sys2Proof.Machine.execDdpDecodePC s
  | .ddpDecodeKU => Sys2Proof.Machine.execDdpDecodeKU s
  | .ddpDecodeKC => Sys2Proof.Machine.execDdpDecodeKC s
  | .rpaAssemble => Sys2Proof.Machine.execRpaAssemble s
  | .secRunPU => Sys2Proof.Machine.execSecRunPU s
  | .secRunPC => Sys2Proof.Machine.execSecRunPC s
  | .secRunDU => Sys2Proof.Machine.execSecRunDU s
  | .secRunDC => Sys2Proof.Machine.execSecRunDC s

end Sys2Proof.Machine
end

