-- ==== Sys2Proof/Machine/HostOps.lean ====
section
/-! DEFINITION. The host's operations (spec/30_encoding.md R85, spec/70_reset_and_hazards.md R344) and how the engine
takes the next of them. -/

namespace Sys2Proof.Machine

/-- An item the host reads: its value, or nothing when its validity bit is clear (R85, U42). -/
def State.hostRead (s : State) (a : Item) (v : HostValue) : Option HostValue := if s.valid a then some v else none

/-- Leave the answer of a host read where the host finds it; a read changes nothing of the engine (R85; log entry 2). -/
def State.answer (s : State) (v : Option HostValue) : State := { s with reply := v }

/-- `HostReset` (R34, R85): the reset state; the host's own side is left alone (log entry 14). -/
def State.hostReset (s : State) : State := { State.reset with hostq := s.hostq, reply := s.reply }

/-- `HostIssue(c)` (R81, R85): decode the byte and run the command; a reserved byte is refused with `IllegalCommand`
and nothing else changes (R90, R296). -/
def issueCommand (c : Byte) (s : State) : Host.Outcome State Fault Refusal :=
  match decode c with
  | .ok i => exec i s
  | .error _ => .next (s.refuse .illegalCommand)

/-- One host operation (R85). -/
def hostOp (op : HostOp) (s : State) : Host.Outcome State Fault Refusal :=
  match op with
  | .reset => .next s.hostReset
  | .writeARG v => .next (s.writeArg v)
  | .setVER v => .next (s.writeVer v)
  | .loadIN b => .next (s.writeIn b)
  | .loadOB b => .next (s.writeOB b)
  | .loadKEY b => .next (s.writeKey b)
  | .clearKEY => .next (s.invalidate .KEY)
  | .loadPLAIN b => .next (s.writePlain b)
  | .issue c => issueCommand c s
  | .readReg r => .next (s.answer (s.readReg r))
  | .readKEY => .next (s.answer (s.hostRead .KEY (.bytes s.key.toList)))
  | .readPLAIN => .next (s.answer (s.hostRead .PLAIN (.bytes s.plain)))
  | .readOUT => .next (s.answer (s.hostRead .OUT (.paragraphs s.out)))

/-- The host's next operation, taken from the queue (log entry 1). -/
def takeHostOp (s : State) : Option (HostOp × State) :=
  match s.hostq with
  | [] => none
  | op :: rest => some (op, { s with hostq := rest })

/-- Put a host operation before all those pending. -/
def pushHostOp (op : HostOp) (s : State) : State := { s with hostq := op :: s.hostq }

/-- The command byte whose bits are `w`, of which `nbits` are given (R80, R91). -/
def commandWord (nbits w : Nat) : Byte := BitVec.ofNat 8 (w % 2 ^ nbits)

end Sys2Proof.Machine
end

