-- ==== Sys2Proof/Machine/Step.lean ====
section
/-! DEFINITION. One step of the machine. The engine fetches no instructions (spec/10_state.md R24, R61): a step takes the
host's next operation, and with none pending the engine waits and does nothing (spec/60_exceptions.md R316,
spec/70_reset_and_hazards.md R322; log entry 1). -/

namespace Sys2Proof.Machine

/-- One host operation, done whole: a command is atomic to the host (R85). -/
def step (s : State) : Host.Outcome State Fault Refusal :=
  match takeHostOp s with
  | none => .next s
  | some (op, s) => hostOp op s

/-- `s` with the command whose bits are `w` issued next: it is what the next step takes (log entry 19). -/
def State.withFetchWord (s : State) (nbits w : Nat) : State := pushHostOp (.issue (commandWord nbits w)) s

end Sys2Proof.Machine
end

