-- ==== Sys2Proof/Safety.lean ====
section
/-! DEFINITION. The terms in which claims about the machine are stated: the twelve meanings under given parameters, runs of
several commands, the invariant between commands, agreement of two states on everything a rule may read, the relation
between a plain stream and its records, and the big-step reading of a section run. -/

namespace Sys2Proof.Machine

/-- The meaning of a command under given parameters: "a claim about the hardware names the values it assumes"
(spec/00_scope.md R8). `exec` is this at `Config.params`. -/
def commandWith (P : Params) : Instr → State → State
  | .lprngNew => lprngNew
  | .lprngDraw => lprngDraw P
  | .kdDerive => kdDerive P
  | .ddpDecodePU => ddpDecodePU P
  | .ddpDecodePC => ddpDecodePC P
  | .ddpDecodeKU => ddpDecodeKU P
  | .ddpDecodeKC => ddpDecodeKC P
  | .rpaAssemble => rpaAssemble P
  | .secRunPU => secRunPU P
  | .secRunPC => secRunPC P
  | .secRunDU => secRunDU P
  | .secRunDC => secRunDC P

/-- Commands run one after another by `exec`, stopping where it stops. -/
def execAll : List Instr → State → Host.Outcome State Fault Refusal
  | [], s => .next s
  | i :: is, s =>
    match exec i s with
    | .next t => execAll is t
    | .fault r => .fault r
    | .refused r => .refused r

/-- The SEC.RUN command of two flags (R268). -/
def secInstr (dist comp : Bool) : Instr :=
  match dist, comp with
  | false, false => .secRunPU
  | false, true => .secRunPC
  | true, false => .secRunDU
  | true, true => .secRunDC

/-- The DDP.DECODE command of two flags (R80). -/
def ddpInstr (keyed comp : Bool) : Instr :=
  match keyed, comp with
  | false, false => .ddpDecodePU
  | false, true => .ddpDecodePC
  | true, false => .ddpDecodeKU
  | true, true => .ddpDecodeKC

/-- The contents of `ERR` that R281's table allows, and 0 for no error. -/
def legalErr : List (BitVec 6) := [0x00#6, 0x01#6, 0x02#6, 0x13#6, 0x1C#6, 0x22#6]

/-- What holds between commands. -/
structure State.Inv (s : State) : Prop where
  /-- `FSM` rests: `Start` before any run, then `Done` or `Failed` (R24, R250) -/
  fsm_rests : s.fsm = 0#3 ∨ s.fsm = 5#3 ∨ s.fsm = 6#3
  /-- no pair outside R281's table is in `ERR`; in particular kind 5 is not (R286) -/
  err_legal : s.err ∈ legalErr
  /-- `CST` never holds 3 (R28) -/
  cst_legal : s.cst ≠ 3#2
  /-- a draw is below 2^16 (R116) -/
  res_bound : s.regRes.toNat < 2 ^ 16
  /-- the cursor is inside the stream (R12) -/
  cursor_bound : s.icur ≤ s.inp.length
  /-- after an error there is no section to read (R302) -/
  no_partial_output : s.err ≠ 0#6 → s.valid .OUT = false

/-- Two states that agree on everything a rule may read: the status and sequencing registers, the validity bits, the
host's side, and every item whose validity bit is set (R11, U43). What stands behind a clear bit may differ. -/
structure State.Agree (s t : State) : Prop where
  fsm : s.fsm = t.fsm
  err : s.err = t.err
  cst : s.cst = t.cst
  mode : s.mode = t.mode
  vld : s.vld = t.vld
  hostq : s.hostq = t.hostq
  reply : s.reply = t.reply
  regS : s.valid .S → s.regS = t.regS
  regArg : s.valid .ARG → s.regArg = t.regArg
  regRes : s.valid .RES → s.regRes = t.regRes
  ver : s.valid .VER → s.ver = t.ver
  ob : s.valid .OB → s.ob = t.ob
  key : s.valid .KEY → s.key = t.key
  inp : s.valid .IN → s.inp = t.inp
  icur : s.valid .IN → s.icur = t.icur
  plain : s.valid .PLAIN → s.plain = t.plain
  out : s.valid .OUT → s.out = t.out

/-- A record stream splits into records lying back to back, and `ps` is the paragraph of each in order (R231 (4),
R234, R239). -/
inductive SplitsInto (P : Params) (ver : Version) : List Byte → List Paragraph → Prop where
  | nil : SplitsInto P ver [] []
  | cons (rest : List Byte) (h : Header) (ps : List Paragraph)
      (framed : frameAt P rest = some h)
      (whole : h.hlen + h.size.toNat ≤ rest.length)
      (more : SplitsInto P ver (rest.drop (h.hlen + h.size.toNat)) ps) :
      SplitsInto P ver rest
        (P.paraDecode ⟨h.tagId, h.level, h.size, (rest.drop h.hlen).take h.size.toNat⟩ ver :: ps)

/-- The leading record of a distributed stream: its payload and the bytes after it, or the error of the first check
that fails (R253, R254, R255, R292). -/
def leadingRecord (P : Params) (rest : List Byte) : Except (Stage × ErrKind) (Vector Byte 256 × List Byte) :=
  match frameAt P rest with
  | none => .error (.start, .truncatedStream)
  | some h =>
    if h.tagId ≠ P.tagDistDocData then .error (.start, .malformedRecord)
    else if h.size ≠ 256 then .error (.start, .malformedRecord)
    else if rest.length < h.hlen + 256 then .error (.start, .truncatedStream)
    else .ok (toBuffer 256 ((rest.drop h.hlen).take 256), rest.drop (h.hlen + 256))

/-- The plaintext of a section stream (R256, R257, R258). -/
def plaintextOf (P : Params) (dist : Bool) (rest : List Byte) : Except (Stage × ErrKind) (List Byte) :=
  if dist then
    match leadingRecord P rest with
    | .error e => .error e
    | .ok (ob, ct) =>
      if ct.length % 16 ≠ 0 then .error (.decrypt, .decryptionFailure)
      else .ok (ecbDecrypt P (deriveKey P ob) ct)
  else .ok rest

/-- The record stream under a plaintext (R259). -/
def recordStreamOf (P : Params) (comp : Bool) (pt : List Byte) : Except (Stage × ErrKind) (List Byte) :=
  if comp then
    match inflate P.inflateIncomplete pt with
    | some bytes => .ok bytes
    | none => .error (.decompress, .decompressionFailure)
  else .ok pt

/-- The big-step reading of a section run (R267): "one function from `(IN[ICUR..], DIST, COMP, VER)` and the parameters
to `Ok(section)` or `Err(stage, kind)`". -/
def sectionOf (P : Params) (dist comp : Bool) (ver : Version) (rest : List Byte) :
    Except (Stage × ErrKind) (List Paragraph) :=
  match plaintextOf P dist rest with
  | .error e => .error e
  | .ok pt =>
    match recordStreamOf P comp pt with
    | .error e => .error e
    | .ok plain =>
      match assemble P ver plain with
      | some ps => .ok ps
      | none => .error (.assemble, .truncatedStream)

/-! ### The tables claims compare the meanings with -/

/-- The validity bits each command requires, by the bit numbers of R23 (R296). -/
def requiredBits : Instr → List Nat
  | .lprngNew => [8]
  | .lprngDraw => [0]
  | .kdDerive => [1]
  | .ddpDecodePU | .ddpDecodePC => [3]
  | .ddpDecodeKU | .ddpDecodeKC => [3, 2]
  | .rpaAssemble => [4, 6]
  | .secRunPU | .secRunPC | .secRunDU | .secRunDC => [3, 6]

/-- What `ERR` may hold after a command that was not refused, given what it held before (R281, R304). -/
def possibleErr (before : BitVec 6) : Instr → List (BitVec 6)
  | .lprngNew | .lprngDraw | .kdDerive => [before]
  | .ddpDecodePU => [0x00#6]
  | .ddpDecodePC => [0x00#6, 0x1C#6]
  | .ddpDecodeKU => [0x00#6, 0x13#6]
  | .ddpDecodeKC => [0x00#6, 0x13#6, 0x1C#6]
  | .rpaAssemble => [0x00#6, 0x22#6]
  | .secRunPU => [0x00#6, 0x22#6]
  | .secRunPC => [0x00#6, 0x1C#6, 0x22#6]
  | .secRunDU => [0x00#6, 0x01#6, 0x02#6, 0x13#6, 0x22#6]
  | .secRunDC => [0x00#6, 0x01#6, 0x02#6, 0x13#6, 0x1C#6, 0x22#6]

/-- Whether a command is a SEC.RUN, which alone owns `FSM` (R300). -/
def isSecRun : Instr → Bool
  | .secRunPU | .secRunPC | .secRunDU | .secRunDC => true
  | .lprngNew | .lprngDraw | .kdDerive | .ddpDecodePU | .ddpDecodePC | .ddpDecodeKU | .ddpDecodeKC
  | .rpaAssemble => false

/-- Whether a command reads and consumes `IN` (R336). -/
def readsStream : Instr → Bool
  | .ddpDecodePU | .ddpDecodePC | .ddpDecodeKU | .ddpDecodeKC
  | .secRunPU | .secRunPC | .secRunDU | .secRunDC => true
  | .lprngNew | .lprngDraw | .kdDerive | .rpaAssemble => false

/-- Whether a command owns `ERR`: it clears it at its start and may raise (R304, D28). -/
def ownsErr : Instr → Bool
  | .lprngNew | .lprngDraw | .kdDerive => false
  | .ddpDecodePU | .ddpDecodePC | .ddpDecodeKU | .ddpDecodeKC | .rpaAssemble
  | .secRunPU | .secRunPC | .secRunDU | .secRunDC => true

/-- The successor of each orchestrator state when no error is raised (the transition table of R250); `Done` and
`Failed` rest. -/
def orchNext (dist comp : Bool) : Stage → Stage
  | .start => if dist then .keyDerivation else if comp then .decompress else .assemble
  | .keyDerivation => .decrypt
  | .decrypt => if comp then .decompress else .assemble
  | .decompress => .assemble
  | .assemble => .done
  | .done => .done
  | .failed => .failed

/-! ### Key derivation as functions of the draws (R143) -/

/-- `d(k)`: the k-th draw, k from 1, after seeding (R118, R143). -/
def drawAt (P : Params) (seed : Word) (k : Nat) : Word := lprngOut P ((lprngNext P)^[k] seed)

/-- `fill_r = d(2r-1) & 0xFF` (R143). -/
def fillOf (P : Params) (seed : Word) (r : Nat) : Byte := BitVec.ofNat 8 ((drawAt P seed (2 * r - 1)).toNat % 256)

/-- `times_r = (d(2r) & 0x0F) + 1` (R143). -/
def timesOf (P : Params) (seed : Word) (r : Nat) : Nat := (drawAt P seed (2 * r)).toNat % 16 + 1

/-- `start_r = min(256, times_1 + ... + times_(r-1))` (R143). -/
def startOf (P : Params) (seed : Word) (r : Nat) : Nat :=
  min 256 (((List.range (r - 1)).map fun k => timesOf P seed (k + 1)).sum)

/-- The block a reference encoder makes of a clear block under a seed: the seed in clear in bytes 0 to 3, little-endian,
and every other byte XORed with the pad (R82, R140). -/
def obfuscate (P : Params) (seed : Word) (clear : Vector Byte 256) : Vector Byte 256 :=
  Vector.ofFn fun i =>
    if i.val < 4 then seed.extractLsb' (8 * i.val) 8 else clear[i] ^^^ (kdPadgen P seed).pad.getD i.val 0

/-! ### The inverse of the ECB stage, for the round trip of R268 -/

/-- ECB encryption with a block function `enc`, of a plaintext of whole blocks. -/
def ecbEncrypt (enc : Vector Byte 16 → Vector Byte 16 → Vector Byte 16) (key : Vector Byte 16) (pt : List Byte) :
    List Byte :=
  (List.range (pt.length / 16)).flatMap fun b => (enc key (toBuffer 16 (slice (16 * b) (16 * b + 16) pt))).toList

/-! ### Canonical codes (R193) -/

/-- The codeword of a symbol: the first of its length and one more for each smaller symbol of that length (R193). -/
def codewordOf (lens : List Nat) (sym : Nat) : Nat :=
  firstCodeword lens (lens.getD sym 0) + (lens.take sym).count (lens.getD sym 0)

/-- A number written as `n` bits, most significant first (R194). -/
def msbBits : Nat → Nat → Bits
  | 0, _ => []
  | n + 1, v => v.testBit n :: msbBits n v

end Sys2Proof.Machine
end

