-- ==== Sys2Proof/Certificates/Slice0/Obligations.lean ====
section
/-! DEFINITION. The statements about the engine, each from a numbered rule of spec/. A statement about a command gives the
whole next state wherever it can: every field it does not name is unchanged. `0x001#9` ... `0x100#9` are the bits of
`VLD` (R23). -/

open Sys2Proof Sys2Proof.Machine

/-! ### Decoding and the step -/

/-- R80, R81, R88: each of the twelve command bytes decodes to its command. -/
def Obligations.CommandBytesDecode : Prop :=
  decode 0x10#8 = .ok .lprngNew ∧ decode 0x11#8 = .ok .lprngDraw ∧ decode 0x20#8 = .ok .kdDerive ∧
  decode 0x30#8 = .ok .ddpDecodePU ∧ decode 0x31#8 = .ok .ddpDecodePC ∧ decode 0x32#8 = .ok .ddpDecodeKU ∧
  decode 0x33#8 = .ok .ddpDecodeKC ∧ decode 0x40#8 = .ok .rpaAssemble ∧ decode 0x50#8 = .ok .secRunPU ∧
  decode 0x51#8 = .ok .secRunPC ∧ decode 0x52#8 = .ok .secRunDU ∧ decode 0x53#8 = .ok .secRunDC

/-- R80, R88: decoding an encoded command gives it back, and a byte that decodes is the encoding of what it decodes
to. -/
def Obligations.DecodeEncodeAgree : Prop :=
  (∀ i : Instr, i.WellFormed = true → decode (encode i) = .ok i) ∧
  (∀ (c : Byte) (i : Instr), decode c = .ok i → encode i = c ∧ i.WellFormed = true)

/-- R90: issuing a byte that is none of the twelve is refused: `CST` takes `IllegalCommand` and no other state
changes. -/
def Obligations.ReservedByteRefused : Prop :=
  ∀ (c : Byte) (s : State),
    c ∉ [0x10#8, 0x11#8, 0x20#8, 0x30#8, 0x31#8, 0x32#8, 0x33#8, 0x40#8, 0x50#8, 0x51#8, 0x52#8, 0x53#8] →
    issueCommand c s = .next { s with cst := 1#2 }

/-- R85, log entry 1 (the host's queue is the model's own): when the host's next request issues a command byte, the step
is its issue with the request taken, and for a byte that decodes to `i` it is `exec` of `i`. -/
def Obligations.StepRunsIssuedCommand : Prop :=
  ∀ (c : Byte) (s : State) (q : List HostOp), s.hostq = .issue c :: q →
    step s = issueCommand c { s with hostq := q } ∧
    ∀ i : Instr, decode c = .ok i → step s = exec i { s with hostq := q }

/-- R316, R322, log entry 1 (the host's queue is the model's own): with no request pending the engine does nothing. -/
def Obligations.IdleStepChangesNothing : Prop :=
  ∀ s : State, s.hostq = [] → step s = .next s

/-- R288: every command, and every step, ends in a next state: no fault and no refusal of the model. -/
def Obligations.NothingStopsTheEngine : Prop :=
  (∀ (i : Instr) (s : State), ∃ t, exec i s = .next t) ∧ (∀ s : State, ∃ t, step s = .next t)

/-! ### Reset and the host's operations -/

/-- R34: the registers that reset gives a value, that no item holds one, and that a draw before a seed is refused. -/
def Obligations.ResetValues : Prop :=
  State.reset.fsm = 0#3 ∧ State.reset.err = 0#6 ∧ State.reset.cst = 0#2 ∧ State.reset.mode = 0#2 ∧
  State.reset.vld = 0#9 ∧ State.reset.icur = 0 ∧ (∀ a : Item, State.reset.valid a = false) ∧
  exec .lprngDraw State.reset = .next { State.reset with cst := 2#2 }

/-- R85, R34: `HostReset` brings the same values about from any state, and leaves the host's own side alone (log entry
14). -/
def Obligations.HostResetClears : Prop :=
  ∀ (s : State) (q : List HostOp), s.hostq = .reset :: q →
    ∃ t, step s = .next t ∧ t.fsm = 0#3 ∧ t.err = 0#6 ∧ t.cst = 0#2 ∧ t.mode = 0#2 ∧ t.vld = 0#9 ∧ t.icur = 0 ∧
      t.hostq = q ∧ t.reply = s.reply

/-- R85: each load of the host writes its item, sets the item's validity bit, and changes nothing else; `HostLoadIN`
also puts the cursor at 0, and `HostClearKEY` clears the bit alone. -/
def Obligations.HostLoadsWriteTheirItem : Prop :=
  ∀ (s : State) (q : List HostOp),
    (∀ v, s.hostq = .writeARG v :: q →
      step s = .next { s with hostq := q, regArg := v, vld := s.vld ||| 0x100#9 }) ∧
    (∀ v, s.hostq = .setVER v :: q →
      step s = .next { s with hostq := q, ver := v, vld := s.vld ||| 0x040#9 }) ∧
    (∀ b, s.hostq = .loadIN b :: q →
      step s = .next { s with hostq := q, inp := b, icur := 0, vld := s.vld ||| 0x008#9 }) ∧
    (∀ b, s.hostq = .loadOB b :: q →
      step s = .next { s with hostq := q, ob := b, vld := s.vld ||| 0x002#9 }) ∧
    (∀ b, s.hostq = .loadKEY b :: q →
      step s = .next { s with hostq := q, key := b, vld := s.vld ||| 0x004#9 }) ∧
    (s.hostq = .clearKEY :: q →
      step s = .next { s with hostq := q, vld := s.vld &&& ~~~0x004#9 }) ∧
    (∀ b, s.hostq = .loadPLAIN b :: q →
      step s = .next { s with hostq := q, plain := b, vld := s.vld ||| 0x010#9 })

/-- R85, U42, log entry 2: a host read answers with the item when its validity bit is set and with nothing when it is
clear. That `FSM`, `ERR`, `CST`, `MODE` and `VLD` have no bit and are always read, and that `ICUR` shares the bit of
`IN`, is deduced from the table of R23 (log entry 20). Nothing but the answer changes. -/
def Obligations.HostReadsAnswerValidItems : Prop :=
  ∀ (s : State) (q : List HostOp),
    (s.hostq = .readKEY :: q → step s = .next { s with
      hostq := q, reply := if s.vld.getLsbD 2 then some (.bytes s.key.toList) else none }) ∧
    (s.hostq = .readPLAIN :: q → step s = .next { s with
      hostq := q, reply := if s.vld.getLsbD 4 then some (.bytes s.plain) else none }) ∧
    (s.hostq = .readOUT :: q → step s = .next { s with
      hostq := q, reply := if s.vld.getLsbD 5 then some (.paragraphs s.out) else none }) ∧
    (s.hostq = .readReg .S :: q → step s = .next { s with
      hostq := q, reply := if s.vld.getLsbD 0 then some (.number s.regS.toNat) else none }) ∧
    (s.hostq = .readReg .ARG :: q → step s = .next { s with
      hostq := q, reply := if s.vld.getLsbD 8 then some (.number s.regArg.toNat) else none }) ∧
    (s.hostq = .readReg .RES :: q → step s = .next { s with
      hostq := q, reply := if s.vld.getLsbD 7 then some (.number s.regRes.toNat) else none }) ∧
    (s.hostq = .readReg .ICUR :: q → step s = .next { s with
      hostq := q, reply := if s.vld.getLsbD 3 then some (.number s.icur) else none }) ∧
    (s.hostq = .readReg .VER :: q → step s = .next { s with
      hostq := q, reply := if s.vld.getLsbD 6 then some (.version s.ver) else none }) ∧
    (s.hostq = .readReg .FSM :: q → step s = .next { s with hostq := q, reply := some (.number s.fsm.toNat) }) ∧
    (s.hostq = .readReg .ERR :: q → step s = .next { s with hostq := q, reply := some (.number s.err.toNat) }) ∧
    (s.hostq = .readReg .CST :: q → step s = .next { s with hostq := q, reply := some (.number s.cst.toNat) }) ∧
    (s.hostq = .readReg .MODE :: q → step s = .next { s with hostq := q, reply := some (.number s.mode.toNat) }) ∧
    (s.hostq = .readReg .VLD :: q → step s = .next { s with hostq := q, reply := some (.number s.vld.toNat) })

/-! ### The Legacy PRNG -/

/-- R114: LPRNG.NEW puts the seed into `S`, sets `SV` and `CST`, and touches nothing else; without `ARG` it is refused. -/
def Obligations.SeedingLoadsArgument : Prop :=
  ∀ s : State, encode .lprngNew = 0x10#8 ∧
    (s.valid .ARG = true →
      exec .lprngNew s = .next { s with regS := s.regArg, vld := s.vld ||| 0x001#9, cst := 0#2 }) ∧
    (s.valid .ARG = false → exec .lprngNew s = .next { s with cst := 2#2 })

/-- LPRNG.DRAW advances `S` modulo 2^32 and lands in `RES` the shifted, masked NEW `S`; it sets `RESV` and `CST` and
touches nothing else; without `S` it is refused. The form of the step, and that the value comes from the new `S`, is the
spec's general-knowledge passage G1 (log entry 7). -/
def Obligations.DrawAdvancesAndLandsResult : Prop :=
  ∀ s : State, encode .lprngDraw = 0x11#8 ∧
    (s.valid .S = true →
      let n : Word := BitVec.ofNat 32 (s.regS.toNat * Config.lprngA.toNat + Config.lprngC.toNat)
      exec .lprngDraw s = .next { s with
        regS := n, regRes := (n >>> Config.lprngSh.val) &&& Config.lprngMask.setWidth 32,
        vld := s.vld ||| 0x080#9, cst := 0#2 }) ∧
    (s.valid .S = false → exec .lprngDraw s = .next { s with cst := 2#2 })

/-- R116: every value a draw lands in `RES` is below 2^16. -/
def Obligations.DrawsAreBelow65536 : Prop :=
  ∀ s : State, s.valid .S = true → ∃ t, exec .lprngDraw s = .next t ∧ t.regRes.toNat < 2 ^ 16

/-- R118: the (n+1)-th draw after LPRNG.NEW with seed `s` is `out(next^(n+1)(s))`: nothing else enters. -/
def Obligations.NthDrawDependsOnSeedAlone : Prop :=
  ∀ (s : State) (n : Nat), s.valid .ARG = true →
    ∃ t, execAll (.lprngNew :: List.replicate (n + 1) .lprngDraw) s = .next t ∧
      t.regRes = lprngOut Config.params ((lprngNext Config.params)^[n + 1] s.regArg) ∧
      t.regS = (lprngNext Config.params)^[n + 1] s.regArg

/-! ### Key derivation -/

/-- R130, R131, R136, R137, R139, R141: KD.DERIVE takes the seed little-endian from bytes 0 to 3, and key byte `i` is
the block byte XOR the pad byte at `OFF + i`; `KEYV` is set, `SV` cleared, `OB` unchanged, and nothing else changes but
`S`, which is no longer valid. -/
def Obligations.DerivedKeyIsBlockXorPad : Prop :=
  ∀ s : State, s.valid .OB = true →
    let seed : Word := BitVec.ofNat 32
      (s.ob[0].toNat + 2 ^ 8 * s.ob[1].toNat + 2 ^ 16 * s.ob[2].toNat + 2 ^ 24 * s.ob[3].toNat)
    let off := seed.toNat % 16 + 4
    let pad := (kdPadgen Config.params seed).pad
    ∃ t, exec .kdDerive s = .next t ∧
      (∀ (i : Nat) (h : i < 16), t.key[i] = s.ob.toList.getD (off + i) 0 ^^^ pad.getD (off + i) 0) ∧
      t = { s with regS := t.regS, key := t.key, vld := (s.vld ||| 0x004#9) &&& ~~~0x001#9, cst := 0#2 }

/-- R53, R137: the offset is `(seed & 0xF) + 4`, in `[4, 19]`, and the 80-byte window lies inside the block. -/
def Obligations.OffsetKeepsWindowInside : Prop :=
  ∀ seed : Word, kdOffset seed = seed.toNat % 16 + 4 ∧ 4 ≤ kdOffset seed ∧ kdOffset seed ≤ 19 ∧
    kdOffset seed + 80 ≤ 256

/-- R134: whatever the draws, the pad is exactly 256 bytes long, after at least 16 and at most 256 runs of two draws
each: between 32 and 512 draws. -/
def Obligations.PadFillsExactly256 : Prop :=
  ∀ (P : Params) (seed : Word),
    (kdPadgen P seed).pad.length = 256 ∧
    ∃ r, 16 ≤ r ∧ r ≤ 256 ∧ (kdPadgen P seed).prng = (lprngNext P)^[2 * r] seed ∧
      startOf P seed r < 256 ∧ startOf P seed (r + 1) = 256

/-- R143: the functional form of the pad: slot `i` holds the fill of the one run that covers it. -/
def Obligations.PadSlotHoldsFillOfItsRun : Prop :=
  ∀ (P : Params) (seed : Word) (i : Nat), i < 256 →
    ∃ r, (1 ≤ r ∧ startOf P seed r ≤ i ∧ i < startOf P seed r + timesOf P seed r) ∧
      (kdPadgen P seed).pad[i]? = some (fillOf P seed r) ∧
      ∀ r', (1 ≤ r' ∧ startOf P seed r' ≤ i ∧ i < startOf P seed r' + timesOf P seed r') → r' = r

/-- R142: the key is a function of the seed bytes and of the sixteen block bytes at `OFF`; no other byte reaches it. -/
def Obligations.KeyDependsOnTwentyBlockBytes : Prop :=
  ∀ s s' : State, s.valid .OB = true → s'.valid .OB = true →
    (∀ i, i < 4 → s.ob.toList.getD i 0 = s'.ob.toList.getD i 0) →
    (∀ i, i < 16 → s.ob.toList.getD (kdOffset (kdSeed s.ob) + i) 0 = s'.ob.toList.getD (kdOffset (kdSeed s.ob) + i) 0) →
    ∃ t t', exec .kdDerive s = .next t ∧ exec .kdDerive s' = .next t' ∧ t.key = t'.key

/-- R119: for masks whose bits 7:0 are all ones, the byte used of a draw does not depend on the mask, and pad and key
are the same. -/
def Obligations.MaskAboveBit7NeverReachesKey : Prop :=
  ∀ (P : Params) (m m' : BitVec 16), (∀ j, j < 8 → m.getLsbD j = true) → (∀ j, j < 8 → m'.getLsbD j = true) →
    let Q := { P with lprngMask := m }
    let Q' := { P with lprngMask := m' }
    (∀ v : Word, lprngOut Q v &&& 0xFF = (v >>> P.lprngSh.val) &&& 0xFF) ∧
    (∀ seed, (kdPadgen Q seed).pad = (kdPadgen Q' seed).pad) ∧
    (∀ ob, deriveKey Q ob = deriveKey Q' ob)

/-- R140, R82: the round trip: the key derived from an obfuscated block is the sixteen clear bytes at the offset. -/
def Obligations.ObfuscatedKeyIsRecovered : Prop :=
  ∀ (s : State) (seed : Word) (clear : Vector Byte 256), s.valid .OB = true →
    s.ob = obfuscate Config.params seed clear →
    ∃ t, exec .kdDerive s = .next t ∧
      ∀ (i : Nat) (h : i < 16), t.key[i] = clear.toList.getD (seed.toNat % 16 + 4 + i) 0

/-- R331, R141: after KD.DERIVE a draw is refused until the PRNG is seeded anew. -/
def Obligations.DerivationLosesPrngState : Prop :=
  ∀ s : State, s.valid .OB = true →
    ∃ t, exec .kdDerive s = .next t ∧ t.valid .S = false ∧ exec .lprngDraw t = .next { t with cst := 2#2 }

/-- R337, R140: the block is unchanged by the derivation, and a second derivation gives the same key. -/
def Obligations.SecondDerivationGivesSameKey : Prop :=
  ∀ s : State, s.valid .OB = true →
    ∃ t u, exec .kdDerive s = .next t ∧ exec .kdDerive t = .next u ∧ t.ob = s.ob ∧ t.valid .OB = true ∧ u.key = t.key

/-! ### Decrypt and decompress -/

/-- R167: DDP.DECODE.PU hands the remainder of the stream on as `PLAIN`; without `IN` it is refused. The premise on the
cursor, here and below, is a clause of `State.Inv`. -/
def Obligations.PlainDecodeCopiesRemainder : Prop :=
  ∀ s : State, encode .ddpDecodePU = 0x30#8 ∧
    (s.valid .IN = false → exec .ddpDecodePU s = .next { s with cst := 2#2 }) ∧
    (s.valid .IN = true → s.icur ≤ s.inp.length →
      exec .ddpDecodePU s = .next { s with
        mode := 0#2, err := 0#6, icur := s.inp.length, plain := s.inp.drop s.icur,
        vld := (s.vld ||| 0x010#9) &&& ~~~0x008#9, cst := 0#2 })

/-- R168: DDP.DECODE.PC on a valid deflate stream makes `PLAIN` the inflated remainder, and on an invalid one ends in
`DecompressionFailure(Decompress)`; without `IN` it is refused. -/
def Obligations.PlainDecodeInflates : Prop :=
  ∀ s : State, encode .ddpDecodePC = 0x31#8 ∧
    (s.valid .IN = false → exec .ddpDecodePC s = .next { s with cst := 2#2 }) ∧
    (s.valid .IN = true → s.icur ≤ s.inp.length →
      (∀ bytes, inflate Config.params.inflateIncomplete (s.inp.drop s.icur) = some bytes →
        exec .ddpDecodePC s = .next { s with
          mode := 1#2, err := 0#6, icur := s.inp.length, plain := bytes,
          vld := (s.vld ||| 0x010#9) &&& ~~~0x008#9, cst := 0#2 }) ∧
      (inflate Config.params.inflateIncomplete (s.inp.drop s.icur) = none →
        exec .ddpDecodePC s = .next { s with
          mode := 1#2, err := 0x1C#6, icur := s.inp.length, vld := s.vld &&& ~~~0x03C#9, cst := 0#2 }))

/-- R169, R163: DDP.DECODE.KU on whole blocks: `PLAIN` has the length of the ciphertext, its block `b` is the decryption
of ciphertext block `b` with the key, and the key is spent. On a ciphertext that is not a whole number of blocks it ends
in `DecryptionFailure(Decrypt)`; without `IN` or `KEY` it is refused. -/
def Obligations.KeyedDecodeDecryptsBlocks : Prop :=
  ∀ s : State, encode .ddpDecodeKU = 0x32#8 ∧
    (s.valid .IN = false ∨ s.valid .KEY = false → exec .ddpDecodeKU s = .next { s with cst := 2#2 }) ∧
    (s.valid .IN = true → s.valid .KEY = true → s.icur ≤ s.inp.length →
      ((s.inp.length - s.icur) % 16 ≠ 0 →
        exec .ddpDecodeKU s = .next { s with
          mode := 2#2, err := 0x13#6, icur := s.inp.length, vld := s.vld &&& ~~~0x03C#9, cst := 0#2 }) ∧
      ((s.inp.length - s.icur) % 16 = 0 →
        ∃ t, exec .ddpDecodeKU s = .next t ∧
          t.plain.length = s.inp.length - s.icur ∧
          (∀ b, b < (s.inp.length - s.icur) / 16 →
            (t.plain.drop (16 * b)).take 16 =
              (Config.params.blockDecrypt s.key (toBuffer 16 ((s.inp.drop (s.icur + 16 * b)).take 16))).toList) ∧
          t = { s with
            mode := 2#2, err := 0#6, icur := s.inp.length, plain := t.plain,
            vld := (s.vld ||| 0x010#9) &&& ~~~0x00C#9, cst := 0#2 }))

/-- R170: DDP.DECODE.KC checks alignment first, then decrypts and inflates: misaligned, it ends in
`DecryptionFailure(Decrypt)` whatever the bytes are; a plaintext that is no deflate stream ends it in
`DecompressionFailure(Decompress)`; otherwise `PLAIN` is the inflated plaintext and the key is spent. Without `IN` or
`KEY` it is refused. Under any cipher; `exec` is this at `Config.params`. -/
def Obligations.KeyedDecodeInflatesPlaintext : Prop :=
  ∀ s : State, encode .ddpDecodeKC = 0x33#8 ∧
    (s.valid .IN = false ∨ s.valid .KEY = false → exec .ddpDecodeKC s = .next { s with cst := 2#2 }) ∧
    (s.valid .IN = true → s.valid .KEY = true → s.icur ≤ s.inp.length →
      exec .ddpDecodeKC s = .next (commandWith Config.params .ddpDecodeKC s) ∧
      ∀ P : Params,
        ((s.inp.length - s.icur) % 16 ≠ 0 →
          commandWith P .ddpDecodeKC s = { s with
            mode := 3#2, err := 0x13#6, icur := s.inp.length, vld := s.vld &&& ~~~0x03C#9, cst := 0#2 }) ∧
        ((s.inp.length - s.icur) % 16 = 0 →
          (∀ bytes, inflate P.inflateIncomplete (ecbDecrypt P s.key (s.inp.drop s.icur)) = some bytes →
            commandWith P .ddpDecodeKC s = { s with
              mode := 3#2, err := 0#6, icur := s.inp.length, plain := bytes,
              vld := (s.vld ||| 0x010#9) &&& ~~~0x00C#9, cst := 0#2 }) ∧
          (inflate P.inflateIncomplete (ecbDecrypt P s.key (s.inp.drop s.icur)) = none →
            commandWith P .ddpDecodeKC s = { s with
              mode := 3#2, err := 0x1C#6, icur := s.inp.length, vld := s.vld &&& ~~~0x03C#9, cst := 0#2 })))

/-- R163: electronic codebook: no chaining: decrypting two runs of whole blocks one after the other is decrypting them
together, and the length is preserved. -/
def Obligations.EcbHasNoChaining : Prop :=
  ∀ (P : Params) (key : Vector Byte 16) (a b : List Byte), a.length % 16 = 0 → b.length % 16 = 0 →
    ecbDecrypt P key (a ++ b) = ecbDecrypt P key a ++ ecbDecrypt P key b ∧ (ecbDecrypt P key a).length = a.length

/-- R172, R335: the key is single-use: after a keyed decode, completed or failed, the next keyed decode is refused. -/
def Obligations.KeyIsSingleUse : Prop :=
  ∀ (comp comp' : Bool) (s : State), s.operandsValid (ddpInstr true comp) = true →
    ∃ t, exec (ddpInstr true comp) s = .next t ∧ t.valid .KEY = false ∧
      exec (ddpInstr true comp') t = .next { t with cst := 2#2 }

/-- R336: a command that read `IN` invalidates it, completed or failed; the same command again is refused. -/
def Obligations.StreamIsConsumed : Prop :=
  ∀ (i : Instr) (s : State), readsStream i = true → s.operandsValid i = true →
    ∃ t, exec i s = .next t ∧ t.valid .IN = false ∧ exec i t = .next { t with cst := 2#2 }

/-! ### The deflate decoder (from the spec's general-knowledge passage G3, log entry 11) -/

/-- R185, R187: the empty input is `Invalid`, and so is a block of type 3. -/
def Obligations.EmptyAndReservedBlockInvalid : Prop :=
  ∀ pol : IncompletePolicy, inflate pol [] = none ∧
    ∀ (b : Byte) (more : List Byte), b.getLsbD 1 = true → b.getLsbD 2 = true → inflate pol (b :: more) = none

/-- R186, R184: a final stored block of up to 65535 bytes gives its bytes, whatever follows it. -/
def Obligations.StoredBlockGivesItsBytes : Prop :=
  ∀ (pol : IncompletePolicy) (l more : List Byte), l.length < 2 ^ 16 →
    let len : BitVec 16 := BitVec.ofNat 16 l.length
    inflate pol ([0x01#8, len.extractLsb' 0 8, len.extractLsb' 8 8, (~~~len).extractLsb' 0 8, (~~~len).extractLsb' 8 8]
      ++ l ++ more) = some l

/-- R184: bytes after the final block are not examined: an input that is `Ok` is `Ok` with the same output whatever is
appended to it. -/
def Obligations.TrailingBytesAreIgnored : Prop :=
  ∀ (pol : IncompletePolicy) (pt more out : List Byte), inflate pol pt = some out → inflate pol (pt ++ more) = some out

/-- R205: the open incompleteness cases only ever turn an accepted stream into a rejected one: what the strict decoder
accepts the lenient one accepts, with the same output. -/
def Obligations.LenientExtendsStrict : Prop :=
  ∀ pt out : List Byte, inflate .fail pt = some out → inflate .allow pt = some out

/-- R340, log entry 11: none of the decoder's three bounded loops runs out of fuel before its input: with more fuel than
the decoder gives it, the block loop and the body loop (fuel the number of bits left) and the loop over the code lengths
(fuel the number of lengths wanted) answer the same. -/
def Obligations.InflateFuelSuffices : Prop :=
  (∀ (pol : IncompletePolicy) (r : Bits) (out : List Byte) (n : Nat), r.length ≤ n →
    inflateBlocks pol n r out = inflateBlocks pol r.length r out) ∧
  (∀ (ll dd : HuffCode) (r : Bits) (out : List Byte) (n : Nat), r.length ≤ n →
    inflateBody ll dd n r out = inflateBody ll dd r.length r out) ∧
  (∀ (cl : HuffCode) (total : Nat) (lens : List Nat) (r : Bits) (n : Nat), total ≤ n →
    readLengths cl total n lens r = readLengths cl total total lens r)

/-- R191: the copy from the growing output repeats the last `dist` bytes: its `k`-th byte is the byte `k mod dist` of
them. -/
def Obligations.MatchCopyRepeatsHistory : Prop :=
  ∀ (dist n : Nat) (out : List Byte), 1 ≤ dist → dist ≤ out.length →
    (copyMatch dist n out.reverse).reverse =
      out ++ (List.range n).map fun k => out.getD (out.length - dist + k % dist) 0

/-- R193, R194: for lengths up to 15 that are not over-subscribed, the bits of a used symbol's canonical codeword, most
significant first, decode to that symbol and leave what follows. -/
def Obligations.CanonicalCodewordsDecode : Prop :=
  ∀ (lens : List Nat) (sym : Nat) (r : Bits), (∀ l ∈ lens, l ≤ 15) → kraftSum lens ≤ 2 ^ 15 →
    lens.getD sym 0 ≠ 0 →
    decodeSymbol (canonicalCode lens) (msbBits (lens.getD sym 0) (codewordOf lens sym) ++ r) = some (sym, r)

/-- R192: the fixed codes are the ranges the rule lists. -/
def Obligations.FixedCodesAreTheListedRanges : Prop :=
  (∀ sym, sym < 144 → fixedLitLenLengths.getD sym 0 = 8 ∧ codewordOf fixedLitLenLengths sym = 0b00110000 + sym) ∧
  (∀ sym, sym < 112 →
    fixedLitLenLengths.getD (144 + sym) 0 = 9 ∧ codewordOf fixedLitLenLengths (144 + sym) = 0b110010000 + sym) ∧
  (∀ sym, sym < 24 → fixedLitLenLengths.getD (256 + sym) 0 = 7 ∧ codewordOf fixedLitLenLengths (256 + sym) = sym) ∧
  (∀ sym, sym < 8 →
    fixedLitLenLengths.getD (280 + sym) 0 = 8 ∧ codewordOf fixedLitLenLengths (280 + sym) = 0b11000000 + sym) ∧
  (∀ sym, sym < 32 → fixedDistLengths.getD sym 0 = 5 ∧ codewordOf fixedDistLengths sym = sym) ∧
  kraftSum fixedLitLenLengths = 2 ^ 15 ∧ kraftSum fixedDistLengths = 2 ^ 15

/-! ### Records and paragraphs -/

/-- R238, R239: RPA.ASSEMBLE on a stream that splits into records writes the paragraph of each, in order; on one that does
not split into whole records it ends in `TruncatedStream(Assemble)` with nothing delivered; without `PLAIN` or `VER` it
is refused. Under any collaborators; `exec` is this at `Config.params`. -/
def Obligations.AssemblyMapsRecordsInOrder : Prop :=
  ∀ s : State, encode .rpaAssemble = 0x40#8 ∧
    (s.valid .PLAIN = false ∨ s.valid .VER = false → exec .rpaAssemble s = .next { s with cst := 2#2 }) ∧
    (s.valid .PLAIN = true → s.valid .VER = true →
      exec .rpaAssemble s = .next (commandWith Config.params .rpaAssemble s) ∧
      ∀ P : Params,
        (∀ ps, SplitsInto P s.ver s.plain ps →
          commandWith P .rpaAssemble s = { s with
            err := 0#6, out := ps, vld := (s.vld ||| 0x020#9) &&& ~~~0x010#9, cst := 0#2 }) ∧
        ((¬∃ ps, SplitsInto P s.ver s.plain ps) →
          commandWith P .rpaAssemble s = { s with err := 0x22#6, vld := s.vld &&& ~~~0x03C#9, cst := 0#2 }))

/-- R239, R231, R234: a stream splits into records in at most one way, so "the k-th record" is one record. -/
def Obligations.RecordsOfStreamAreUnique : Prop :=
  ∀ (P : Params) (ver : Version) (plain : List Byte) (ps qs : List Paragraph),
    SplitsInto P ver plain ps → SplitsInto P ver plain qs → ps = qs

/-! ### The orchestrator -/

/-- R263: SEC.RUN.PU on a record stream ends in `Done` with the section, and on any other stream in `Failed` with
`TruncatedStream(Assemble)`; without `IN` or `VER` it is refused. The contents that the next states name for `PLAIN`
stand behind a cleared bit and are the model's choice (log entry 4). Under any collaborators; `exec` is this at
`Config.params`. -/
def Obligations.PlainSectionRunCompletes : Prop :=
  ∀ s : State, encode .secRunPU = 0x50#8 ∧
    (s.valid .IN = false ∨ s.valid .VER = false → exec .secRunPU s = .next { s with cst := 2#2 }) ∧
    (s.valid .IN = true → s.valid .VER = true → s.icur ≤ s.inp.length →
      exec .secRunPU s = .next (commandWith Config.params .secRunPU s) ∧
      ∀ P : Params,
        (∀ ps, SplitsInto P s.ver (s.inp.drop s.icur) ps →
          commandWith P .secRunPU s = { s with
            mode := 0#2, fsm := 5#3, err := 0#6, icur := s.inp.length, plain := s.inp.drop s.icur, out := ps,
            vld := (s.vld ||| 0x020#9) &&& ~~~0x018#9, cst := 0#2 }) ∧
        ((¬∃ ps, SplitsInto P s.ver (s.inp.drop s.icur) ps) →
          commandWith P .secRunPU s = { s with
            mode := 0#2, fsm := 6#3, err := 0x22#6, icur := s.inp.length, plain := s.inp.drop s.icur,
            vld := s.vld &&& ~~~0x03C#9, cst := 0#2 }))

/-- R264: SEC.RUN.PC on the deflate form of a record stream ends in `Done` with the section; on an invalid deflate stream
in `Failed` with `DecompressionFailure(Decompress)`, and on one whose plain stream is no record stream with
`TruncatedStream(Assemble)`; without `IN` or `VER` it is refused. The contents that the next states name for `PLAIN`
stand behind a cleared bit and are the model's choice (log entry 4); `INFLATE` is log entry 11. Under any collaborators;
`exec` is this at `Config.params`. -/
def Obligations.CompressedSectionRunCompletes : Prop :=
  ∀ s : State, encode .secRunPC = 0x51#8 ∧
    (s.valid .IN = false ∨ s.valid .VER = false → exec .secRunPC s = .next { s with cst := 2#2 }) ∧
    (s.valid .IN = true → s.valid .VER = true → s.icur ≤ s.inp.length →
      exec .secRunPC s = .next (commandWith Config.params .secRunPC s) ∧
      ∀ P : Params,
        (∀ plain, inflate P.inflateIncomplete (s.inp.drop s.icur) = some plain →
          (∀ ps, SplitsInto P s.ver plain ps →
            commandWith P .secRunPC s = { s with
              mode := 1#2, fsm := 5#3, err := 0#6, icur := s.inp.length, plain := plain, out := ps,
              vld := (s.vld ||| 0x020#9) &&& ~~~0x018#9, cst := 0#2 }) ∧
          ((¬∃ ps, SplitsInto P s.ver plain ps) →
            commandWith P .secRunPC s = { s with
              mode := 1#2, fsm := 6#3, err := 0x22#6, icur := s.inp.length, plain := plain,
              vld := s.vld &&& ~~~0x03C#9, cst := 0#2 })) ∧
        (inflate P.inflateIncomplete (s.inp.drop s.icur) = none →
          commandWith P .secRunPC s = { s with
            mode := 1#2, fsm := 6#3, err := 0x1C#6, icur := s.inp.length, vld := s.vld &&& ~~~0x03C#9,
            cst := 0#2 }))

/-- R265, R266: a distributed run, under any collaborators that accept the leading record and yield whole records, ends
in `Done` with the section; `OB` holds the leading record's payload, and `S`, `KEY`, `IN`, `PLAIN` are spent. The
contents that the next state names for `S`, `KEY` and `PLAIN` stand behind cleared bits and are the model's choice (log
entry 4). `exec` is this at `Config.params`. -/
def Obligations.DistributedSectionRunCompletes : Prop :=
  ∀ (comp : Bool) (s : State), s.valid .IN = true → s.valid .VER = true → s.icur ≤ s.inp.length →
    exec (secInstr true comp) s = .next (commandWith Config.params (secInstr true comp) s) ∧
    ∀ (P : Params) (h : Header) (plain : List Byte) (ps : List Paragraph),
      let rest := s.inp.drop s.icur
      let ob := toBuffer 256 ((rest.drop h.hlen).take 256)
      let ct := rest.drop (h.hlen + 256)
      let pt := ecbDecrypt P (deriveKey P ob) ct
      frameAt P rest = some h → h.tagId = P.tagDistDocData → h.size = 256 → h.hlen + 256 ≤ rest.length →
      ct.length % 16 = 0 → (if comp then inflate P.inflateIncomplete pt = some plain else plain = pt) →
      SplitsInto P s.ver plain ps →
      commandWith P (secInstr true comp) s = { s with
        regS := deriveLastS P ob, mode := if comp then 3#2 else 2#2, fsm := 5#3, err := 0#6, icur := s.inp.length,
        ob := ob, key := deriveKey P ob, plain := plain, out := ps,
        vld := (s.vld ||| 0x022#9) &&& ~~~0x01D#9, cst := 0#2 }

/-- R267, R292, R300: the small steps of the state machine agree with the big-step reading on `OUT`, `ERR`, `FSM` and
the validity bits, for all four commands: `Ok` gives the section in `Done`; `Err(stage, kind)` gives that error in
`Failed` with nothing left to read, and `S` and `OB` as the stages left them: spent and loaded once a distributed run is
past `Start`, as before the run otherwise. -/
def Obligations.SectionRunRefinesSectionFunction : Prop :=
  ∀ (dist comp : Bool) (s : State), s.valid .IN = true → s.valid .VER = true → s.icur ≤ s.inp.length →
    ∃ t, exec (secInstr dist comp) s = .next t ∧ t.cst = 0#2 ∧
      t.mode = BitVec.ofNat 2 (2 * dist.toNat + comp.toNat) ∧
      (t.valid .VER = true ∧ t.valid .RES = s.valid .RES ∧ t.valid .ARG = s.valid .ARG) ∧
      (∀ ps, sectionOf Config.params dist comp s.ver (s.inp.drop s.icur) = .ok ps →
        t.out = ps ∧ t.err = 0#6 ∧ t.fsm = 5#3 ∧ t.valid .OUT = true ∧ t.valid .IN = false ∧ t.valid .PLAIN = false ∧
        t.valid .KEY = (s.valid .KEY && !dist) ∧ t.valid .S = (s.valid .S && !dist) ∧
        t.valid .OB = (s.valid .OB || dist)) ∧
      (∀ g k, sectionOf Config.params dist comp s.ver (s.inp.drop s.icur) = .error (g, k) →
        t.err.toNat = 8 * g.code.toNat + k.code.toNat ∧ t.fsm = 6#3 ∧ t.valid .OUT = false ∧ t.valid .IN = false ∧
        t.valid .PLAIN = false ∧ t.valid .KEY = false ∧
        t.valid .S = (s.valid .S && !(dist && decide (g ≠ .start))) ∧
        t.valid .OB = (s.valid .OB || (dist && decide (g ≠ .start))))

/-- R250: one transition of the state machine goes where the table says, or raises an error of the stage it is in with
`FSM` not yet moved. -/
def Obligations.OrchestratorFollowsTransitionTable : Prop :=
  ∀ (P : Params) (g : Stage) (pt : List Byte) (s : State), s.fsm = g.code →
    (∀ pt' t, orchStep P pt s = .ok pt' t → t.fsm = (orchNext s.dist s.comp g).code ∧ t.mode = s.mode) ∧
    (∀ k g' t, orchStep P pt s = .err k g' t →
      g' = g ∧ t.fsm = g.code ∧ t.mode = s.mode ∧ (StageOut.finish true (orchStep P pt s)).fsm = Stage.failed.code)

/-- R339, R254: a leading record with the wrong tag or a size other than 256 fails before any cipher work: `S`, `OB` and
the contents of `KEY` are as before, however short the stream is. Under any collaborators; `exec` is this at
`Config.params`. -/
def Obligations.LeadingRecordCheckedFirst : Prop :=
  ∀ (comp : Bool) (s : State), s.valid .IN = true → s.valid .VER = true →
    exec (secInstr true comp) s = .next (commandWith Config.params (secInstr true comp) s) ∧
    ∀ (P : Params) (h : Header), frameAt P (s.inp.drop s.icur) = some h →
      (h.tagId ≠ P.tagDistDocData ∨ h.size ≠ 256) →
      commandWith P (secInstr true comp) s = { s with
        mode := if comp then 3#2 else 2#2, fsm := 6#3, err := 0x01#6, icur := s.icur + h.hlen,
        vld := s.vld &&& ~~~0x03C#9, cst := 0#2 }

/-- R253: a distributed run whose remaining bytes hold no whole header (in particular none at all) fails with
`TruncatedStream(Start)`, the cursor unmoved. Under any collaborators; `exec` is this at `Config.params`. -/
def Obligations.CutLeadingHeaderTruncated : Prop :=
  ∀ (comp : Bool) (s : State), s.valid .IN = true → s.valid .VER = true →
    exec (secInstr true comp) s = .next (commandWith Config.params (secInstr true comp) s) ∧
    ∀ P : Params, frameAt P (s.inp.drop s.icur) = none ∨ s.inp.length ≤ s.icur →
      commandWith P (secInstr true comp) s = { s with
        mode := if comp then 3#2 else 2#2, fsm := 6#3, err := 0x02#6, vld := s.vld &&& ~~~0x03C#9, cst := 0#2 }

/-- R255: a leading record of the right tag and size whose payload is cut short fails with `TruncatedStream(Start)`;
`OB` is as before. Under any collaborators; `exec` is this at `Config.params`. -/
def Obligations.CutLeadingPayloadTruncated : Prop :=
  ∀ (comp : Bool) (s : State), s.valid .IN = true → s.valid .VER = true →
    exec (secInstr true comp) s = .next (commandWith Config.params (secInstr true comp) s) ∧
    ∀ (P : Params) (h : Header), frameAt P (s.inp.drop s.icur) = some h → h.tagId = P.tagDistDocData → h.size = 256 →
      (s.inp.drop s.icur).length < h.hlen + 256 →
      commandWith P (secInstr true comp) s = { s with
        mode := if comp then 3#2 else 2#2, fsm := 6#3, err := 0x02#6, icur := s.icur + h.hlen,
        vld := s.vld &&& ~~~0x03C#9, cst := 0#2 }

/-- R257, R162, R300: a distributed run whose ciphertext is not a whole number of blocks fails with
`DecryptionFailure(Decrypt)`: the block has been loaded and the key derived, `S` and `KEY` are spent, and no block has
been decrypted. The contents that the next state names for `S` and `KEY` stand behind cleared bits and are the model's
choice (log entry 4). Under any collaborators; `exec` is this at `Config.params`. -/
def Obligations.MisalignedDistributedRunFails : Prop :=
  ∀ (comp : Bool) (s : State), s.valid .IN = true → s.valid .VER = true →
    exec (secInstr true comp) s = .next (commandWith Config.params (secInstr true comp) s) ∧
    ∀ (P : Params) (h : Header),
      let rest := s.inp.drop s.icur
      let ob := toBuffer 256 ((rest.drop h.hlen).take 256)
      frameAt P rest = some h → h.tagId = P.tagDistDocData → h.size = 256 → h.hlen + 256 ≤ rest.length →
      (rest.drop (h.hlen + 256)).length % 16 ≠ 0 →
      commandWith P (secInstr true comp) s = { s with
        regS := deriveLastS P ob, mode := if comp then 3#2 else 2#2, fsm := 6#3, err := 0x13#6, icur := s.inp.length,
        ob := ob, key := deriveKey P ob, vld := (s.vld ||| 0x002#9) &&& ~~~0x03D#9, cst := 0#2 }

/-- R259, R260, R262, R300: a distributed run that decrypts its ciphertext and then fails: with `COMP`, in
`DecompressionFailure(Decompress)` on a plaintext that is no deflate stream; in `TruncatedStream(Assemble)` on a plain
stream that does not split into whole records. In both the block has been loaded and stays valid, `S` and `KEY` are
spent, and the cursor is at the end. The contents that the next states name for `S`, `KEY` and `PLAIN` stand behind
cleared bits and are the model's choice (log entry 4). Under any collaborators; `exec` is this at `Config.params`. -/
def Obligations.DistributedRunFailsAfterDecryption : Prop :=
  ∀ (comp : Bool) (s : State), s.valid .IN = true → s.valid .VER = true →
    exec (secInstr true comp) s = .next (commandWith Config.params (secInstr true comp) s) ∧
    ∀ (P : Params) (h : Header),
      let rest := s.inp.drop s.icur
      let ob := toBuffer 256 ((rest.drop h.hlen).take 256)
      let ct := rest.drop (h.hlen + 256)
      let pt := ecbDecrypt P (deriveKey P ob) ct
      let failed (e : BitVec 6) (plain : List Byte) : State := { s with
        regS := deriveLastS P ob, mode := if comp then 3#2 else 2#2, fsm := 6#3, err := e, icur := s.inp.length,
        ob := ob, key := deriveKey P ob, plain := plain, vld := (s.vld ||| 0x002#9) &&& ~~~0x03D#9, cst := 0#2 }
      frameAt P rest = some h → h.tagId = P.tagDistDocData → h.size = 256 → h.hlen + 256 ≤ rest.length →
      ct.length % 16 = 0 →
      (comp = true → inflate P.inflateIncomplete pt = none →
        commandWith P (secInstr true comp) s = failed 0x1C#6 s.plain) ∧
      (∀ plain, (if comp then inflate P.inflateIncomplete pt = some plain else plain = pt) →
        (¬∃ ps, SplitsInto P s.ver plain ps) →
        commandWith P (secInstr true comp) s = failed 0x22#6 plain)

/-- R93, first two rows: a plain run that completes equals DDP.DECODE.P* followed by RPA.ASSEMBLE, in everything but
`FSM`; behind cleared bits too, where the contents are the model's choice (log entry 4). -/
def Obligations.PlainRunEqualsDecodeThenAssemble : Prop :=
  ∀ (comp : Bool) (s t : State), s.valid .IN = true → s.valid .VER = true →
    exec (secInstr false comp) s = .next t → t.fsm = 5#3 →
    execAll [ddpInstr false comp, .rpaAssemble] s = .next { t with fsm := s.fsm }

/-- R93, last two rows: a distributed run that completes equals, after the leading record's payload is in `OB`,
KD.DERIVE, DDP.DECODE.K* and RPA.ASSEMBLE, in everything but `FSM`; behind cleared bits too, where the contents are the
model's choice (log entry 4). Under any collaborators. -/
def Obligations.DistributedRunEqualsDeriveDecodeAssemble : Prop :=
  ∀ (P : Params) (comp : Bool) (s t : State) (h : Header), s.valid .IN = true → s.valid .VER = true →
    commandWith P (secInstr true comp) s = t → t.fsm = 5#3 → frameAt P (s.inp.drop s.icur) = some h →
    commandWith P .rpaAssemble (commandWith P (ddpInstr true comp) (commandWith P .kdDerive
      { s with
        ob := toBuffer 256 ((s.inp.drop (s.icur + h.hlen)).take 256), icur := s.icur + h.hlen + 256,
        vld := s.vld ||| 0x002#9 })) = { t with fsm := s.fsm }

/-- R268: the round trip of the two distributed variants: a known record stream, encrypted with the key the leading
record's block derives (and deflated before, if compressed), comes back as its paragraphs in order. For any cipher with
an inverse `enc`; `exec` is this at `Config.params`. -/
def Obligations.DistributedRoundTrip : Prop :=
  ∀ (comp : Bool) (s : State), s.valid .IN = true → s.valid .VER = true →
    exec (secInstr true comp) s = .next (commandWith Config.params (secInstr true comp) s) ∧
    ∀ (P : Params) (enc : Vector Byte 16 → Vector Byte 16 → Vector Byte 16) (h : Header) (hd pt recs : List Byte)
      (ob : Vector Byte 256) (ps : List Paragraph),
      (∀ k b, P.blockDecrypt k (enc k b) = b) →
      s.inp.drop s.icur = hd ++ ob.toList ++ ecbEncrypt enc (deriveKey P ob) pt → pt.length % 16 = 0 →
      frameAt P (s.inp.drop s.icur) = some h → h.hlen = hd.length → h.tagId = P.tagDistDocData → h.size = 256 →
      (if comp then inflate P.inflateIncomplete pt = some recs else recs = pt) → SplitsInto P s.ver recs ps →
      (commandWith P (secInstr true comp) s).out = ps ∧ (commandWith P (secInstr true comp) s).fsm = 5#3 ∧
      (commandWith P (secInstr true comp) s).err = 0#6 ∧ (commandWith P (secInstr true comp) s).valid .OUT = true

/-! ### Errors, refusals, and what the commands leave alone -/

/-- R296: a reserved byte is refused with `IllegalCommand`, a command one of whose required validity bits is clear with
`UseBeforeWrite`, and a refusal changes `CST` and nothing else; a command whose required bits are all set is not
refused. -/
def Obligations.RefusalChangesCstAlone : Prop :=
  (∀ (c : Byte) (e : DecodeError) (s : State), decode c = .error e → issueCommand c s = .next { s with cst := 1#2 }) ∧
  ∀ (i : Instr) (s : State),
    ((∃ n ∈ requiredBits i, s.vld.getLsbD n = false) → exec i s = .next { s with cst := 2#2 }) ∧
    ((∀ n ∈ requiredBits i, s.vld.getLsbD n = true) → ∃ t, exec i s = .next t ∧ t.cst = 0#2)

/-- R281, R286: the errors each command can leave in `ERR`, and no others; in particular `UnsupportedVersion` never. -/
def Obligations.CommandsRaiseOnlyTheirErrors : Prop :=
  ∀ (i : Instr) (s : State), s.operandsValid i = true → ∃ t, exec i s = .next t ∧ t.err ∈ possibleErr s.err i

/-- R300, R302: a command that ends in an error leaves nothing of `OUT`, `PLAIN`, `IN` and `KEY` to read, `CST = Ok`,
`FSM = Failed` if it is a SEC.RUN and as before if not, and `ARG`, `RES` and `VER` untouched. -/
def Obligations.ErrorLeavesNothingToRead : Prop :=
  ∀ (i : Instr) (s : State), ownsErr i = true → s.operandsValid i = true →
    ∃ t, exec i s = .next t ∧ (t.err ≠ 0#6 →
      t.cst = 0#2 ∧ t.valid .OUT = false ∧ t.valid .PLAIN = false ∧ t.valid .IN = false ∧ t.valid .KEY = false ∧
      t.fsm = (if isSecRun i then 6#3 else s.fsm) ∧ t.valid .ARG = s.valid .ARG ∧ t.regArg = s.regArg ∧
      t.valid .RES = s.valid .RES ∧ t.regRes = s.regRes ∧ t.valid .VER = s.valid .VER ∧ t.ver = s.ver)

/-- R300, R304, R21, R22, R31, R61: the frame of the command set: which command may write which register, buffer and
stream. -/
def Obligations.CommandsWriteOnlyTheirState : Prop :=
  ∀ (i : Instr) (s : State), ∃ t, exec i s = .next t ∧
    (t.regArg = s.regArg ∧ t.valid .ARG = s.valid .ARG ∧ t.ver = s.ver ∧ t.valid .VER = s.valid .VER ∧
      t.inp = s.inp ∧ t.hostq = s.hostq ∧ t.reply = s.reply) ∧
    (i ≠ .lprngDraw → t.regRes = s.regRes ∧ t.valid .RES = s.valid .RES) ∧
    (i ∉ [Instr.secRunDU, .secRunDC] → t.ob = s.ob ∧ t.valid .OB = s.valid .OB) ∧
    (i ∉ [Instr.lprngNew, .lprngDraw, .kdDerive, .secRunDU, .secRunDC] →
      t.regS = s.regS ∧ t.valid .S = s.valid .S) ∧
    (i ∉ [Instr.kdDerive, .secRunDU, .secRunDC] → t.key = s.key) ∧
    (isSecRun i = false → t.fsm = s.fsm) ∧
    (ownsErr i = false → t.err = s.err ∧ t.mode = s.mode ∧ t.out = s.out ∧ t.valid .OUT = s.valid .OUT ∧
      t.plain = s.plain ∧ t.valid .PLAIN = s.valid .PLAIN ∧ t.valid .IN = s.valid .IN) ∧
    (readsStream i = false → t.icur = s.icur ∧ t.mode = s.mode ∧ t.plain = s.plain) ∧
    (i ∈ [Instr.ddpDecodePU, .ddpDecodePC, .ddpDecodeKU, .ddpDecodeKC] → t.out = s.out) ∧
    (i ∈ [Instr.lprngNew, .lprngDraw, .rpaAssemble] → ∀ (p : Space) (a : Nat), t.byteAt p a = s.byteAt p a) ∧
    (∀ (p : Space) (a : Nat), p = .IN → t.byteAt p a = s.byteAt p a)

/-! ### Invariants -/

/-- The invariant holds at reset. -/
def Obligations.InvariantHoldsAtReset : Prop := State.reset.Inv

/-- R24, R27, R28, R116, R302: every step keeps the invariant: `FSM` rests at `Start`, `Done` or `Failed`, `ERR` and
`CST` hold codes that exist, `RES` is below 2^16, the cursor is inside the stream, and after an error there is no
section. From every state that meets it. -/
def Obligations.StepKeepsInvariant : Prop :=
  ∀ s t : State, s.Inv → step s = .next t → t.Inv

/-- R11, U43: nothing that stands behind a clear validity bit reaches what a rule may read: two states that agree on
all that is valid still agree after a step. -/
def Obligations.UnwrittenStateIsNeverRead : Prop :=
  ∀ s t : State, s.Agree t → ∃ s' t', step s = .next s' ∧ step t = .next t' ∧ s'.Agree t'
end

