-- ==== Sys2Proof/Laws/State.lean ====
section
/-! SUPPORT. The small lemmas of the state: for each update, what each field holds after it (true by rfl), what the
validity bits say after it, and the codes of the status registers. -/

namespace Sys2Proof.Machine

theorem Item.bit_lt (a : Item) : a.bit < 9 := by cases a <;> decide

theorem Item.mask_getLsbD (a b : Item) : a.mask.getLsbD b.bit = decide (b = a) := by
  cases a <;> cases b <;> rfl

@[simp] theorem State.valid_validate (s : State) (a b : Item) :
    (s.validate a).valid b = (s.valid b || decide (b = a)) := by
  simp [State.valid, State.validate, Item.mask_getLsbD]

@[simp] theorem State.valid_invalidate (s : State) (a b : Item) :
    (s.invalidate a).valid b = (s.valid b && !decide (b = a)) := by
  simp only [State.valid, State.invalidate, BitVec.getLsbD_and, BitVec.getLsbD_not, Item.mask_getLsbD,
    decide_eq_true b.bit_lt, Bool.true_and]

/-- The nine bits of `VLD` are the validity bits of the nine items (R23). -/
theorem State.vld_ext {s t : State} (h : ∀ a : Item, s.valid a = t.valid a) : s.vld = t.vld := by
  apply BitVec.eq_of_getLsbD_eq
  intro i hi
  have h0 := h .S
  have h1 := h .OB
  have h2 := h .KEY
  have h3 := h .IN
  have h4 := h .PLAIN
  have h5 := h .OUT
  have h6 := h .VER
  have h7 := h .RES
  have h8 := h .ARG
  simp only [State.valid, Item.bit] at *
  interval_cases i <;> assumption

/-- Setting a bit that is set changes nothing. -/
theorem State.vld_or_mask {s : State} {a : Item} (h : s.valid a = true) : s.vld ||| a.mask = s.vld := by
  refine State.vld_ext (s := s.validate a) (t := s) fun b => ?_
  rw [State.valid_validate]
  by_cases hb : b = a <;> simp_all

/-- Clearing a bit that is clear changes nothing. -/
theorem State.vld_and_not_mask {s : State} {a : Item} (h : s.valid a = false) : s.vld &&& ~~~a.mask = s.vld := by
  refine State.vld_ext (s := s.invalidate a) (t := s) fun b => ?_
  rw [State.valid_invalidate]
  by_cases hb : b = a <;> simp_all

@[simp] theorem Stage.ofCode_code (g : Stage) : Stage.ofCode g.code = some g := by cases g <;> rfl

@[simp] theorem State.comp_setMode_modeBits (s : State) (f1 f0 : Bool) : (s.setMode (modeBits f1 f0)).comp = f0 := by
  change (modeBits f1 f0).getLsbD 0 = f0
  revert f1 f0
  decide

@[simp] theorem State.dist_setMode_modeBits (s : State) (f1 f0 : Bool) : (s.setMode (modeBits f1 f0)).dist = f1 := by
  change (modeBits f1 f0).getLsbD 1 = f1
  revert f1 f0
  decide

/-! ### validate -/

@[simp] theorem State.validate_regS (s : State) (a : Item) : (s.validate a).regS = s.regS := rfl
@[simp] theorem State.validate_regArg (s : State) (a : Item) : (s.validate a).regArg = s.regArg := rfl
@[simp] theorem State.validate_regRes (s : State) (a : Item) : (s.validate a).regRes = s.regRes := rfl
@[simp] theorem State.validate_fsm (s : State) (a : Item) : (s.validate a).fsm = s.fsm := rfl
@[simp] theorem State.validate_err (s : State) (a : Item) : (s.validate a).err = s.err := rfl
@[simp] theorem State.validate_cst (s : State) (a : Item) : (s.validate a).cst = s.cst := rfl
@[simp] theorem State.validate_mode (s : State) (a : Item) : (s.validate a).mode = s.mode := rfl
@[simp] theorem State.validate_vld (s : State) (a : Item) : (s.validate a).vld = s.vld ||| a.mask := rfl
@[simp] theorem State.validate_icur (s : State) (a : Item) : (s.validate a).icur = s.icur := rfl
@[simp] theorem State.validate_ver (s : State) (a : Item) : (s.validate a).ver = s.ver := rfl
@[simp] theorem State.validate_ob (s : State) (a : Item) : (s.validate a).ob = s.ob := rfl
@[simp] theorem State.validate_key (s : State) (a : Item) : (s.validate a).key = s.key := rfl
@[simp] theorem State.validate_inp (s : State) (a : Item) : (s.validate a).inp = s.inp := rfl
@[simp] theorem State.validate_plain (s : State) (a : Item) : (s.validate a).plain = s.plain := rfl
@[simp] theorem State.validate_out (s : State) (a : Item) : (s.validate a).out = s.out := rfl
@[simp] theorem State.validate_hostq (s : State) (a : Item) : (s.validate a).hostq = s.hostq := rfl
@[simp] theorem State.validate_reply (s : State) (a : Item) : (s.validate a).reply = s.reply := rfl
@[simp] theorem State.validate_comp (s : State) (a : Item) : (s.validate a).comp = s.comp := rfl
@[simp] theorem State.validate_dist (s : State) (a : Item) : (s.validate a).dist = s.dist := rfl
@[simp] theorem State.validate_streamAvail (s : State) (a : Item) :
    (s.validate a).streamAvail = s.streamAvail := rfl
@[simp] theorem State.validate_streamBytes (s : State) (a : Item) (k : Nat) :
    (s.validate a).streamBytes k = s.streamBytes k := rfl

/-! ### invalidate -/

@[simp] theorem State.invalidate_regS (s : State) (a : Item) : (s.invalidate a).regS = s.regS := rfl
@[simp] theorem State.invalidate_regArg (s : State) (a : Item) : (s.invalidate a).regArg = s.regArg := rfl
@[simp] theorem State.invalidate_regRes (s : State) (a : Item) : (s.invalidate a).regRes = s.regRes := rfl
@[simp] theorem State.invalidate_fsm (s : State) (a : Item) : (s.invalidate a).fsm = s.fsm := rfl
@[simp] theorem State.invalidate_err (s : State) (a : Item) : (s.invalidate a).err = s.err := rfl
@[simp] theorem State.invalidate_cst (s : State) (a : Item) : (s.invalidate a).cst = s.cst := rfl
@[simp] theorem State.invalidate_mode (s : State) (a : Item) : (s.invalidate a).mode = s.mode := rfl
@[simp] theorem State.invalidate_vld (s : State) (a : Item) : (s.invalidate a).vld = s.vld &&& ~~~a.mask := rfl
@[simp] theorem State.invalidate_icur (s : State) (a : Item) : (s.invalidate a).icur = s.icur := rfl
@[simp] theorem State.invalidate_ver (s : State) (a : Item) : (s.invalidate a).ver = s.ver := rfl
@[simp] theorem State.invalidate_ob (s : State) (a : Item) : (s.invalidate a).ob = s.ob := rfl
@[simp] theorem State.invalidate_key (s : State) (a : Item) : (s.invalidate a).key = s.key := rfl
@[simp] theorem State.invalidate_inp (s : State) (a : Item) : (s.invalidate a).inp = s.inp := rfl
@[simp] theorem State.invalidate_plain (s : State) (a : Item) : (s.invalidate a).plain = s.plain := rfl
@[simp] theorem State.invalidate_out (s : State) (a : Item) : (s.invalidate a).out = s.out := rfl
@[simp] theorem State.invalidate_hostq (s : State) (a : Item) : (s.invalidate a).hostq = s.hostq := rfl
@[simp] theorem State.invalidate_reply (s : State) (a : Item) : (s.invalidate a).reply = s.reply := rfl
@[simp] theorem State.invalidate_comp (s : State) (a : Item) : (s.invalidate a).comp = s.comp := rfl
@[simp] theorem State.invalidate_dist (s : State) (a : Item) : (s.invalidate a).dist = s.dist := rfl
@[simp] theorem State.invalidate_streamAvail (s : State) (a : Item) :
    (s.invalidate a).streamAvail = s.streamAvail := rfl
@[simp] theorem State.invalidate_streamBytes (s : State) (a : Item) (k : Nat) :
    (s.invalidate a).streamBytes k = s.streamBytes k := rfl

/-! ### writeS -/

@[simp] theorem State.writeS_regS (s : State) (v : Word) : (s.writeS v).regS = v := rfl
@[simp] theorem State.writeS_regArg (s : State) (v : Word) : (s.writeS v).regArg = s.regArg := rfl
@[simp] theorem State.writeS_regRes (s : State) (v : Word) : (s.writeS v).regRes = s.regRes := rfl
@[simp] theorem State.writeS_fsm (s : State) (v : Word) : (s.writeS v).fsm = s.fsm := rfl
@[simp] theorem State.writeS_err (s : State) (v : Word) : (s.writeS v).err = s.err := rfl
@[simp] theorem State.writeS_cst (s : State) (v : Word) : (s.writeS v).cst = s.cst := rfl
@[simp] theorem State.writeS_mode (s : State) (v : Word) : (s.writeS v).mode = s.mode := rfl
@[simp] theorem State.writeS_vld (s : State) (v : Word) : (s.writeS v).vld = s.vld ||| Item.S.mask := rfl
@[simp] theorem State.writeS_icur (s : State) (v : Word) : (s.writeS v).icur = s.icur := rfl
@[simp] theorem State.writeS_ver (s : State) (v : Word) : (s.writeS v).ver = s.ver := rfl
@[simp] theorem State.writeS_ob (s : State) (v : Word) : (s.writeS v).ob = s.ob := rfl
@[simp] theorem State.writeS_key (s : State) (v : Word) : (s.writeS v).key = s.key := rfl
@[simp] theorem State.writeS_inp (s : State) (v : Word) : (s.writeS v).inp = s.inp := rfl
@[simp] theorem State.writeS_plain (s : State) (v : Word) : (s.writeS v).plain = s.plain := rfl
@[simp] theorem State.writeS_out (s : State) (v : Word) : (s.writeS v).out = s.out := rfl
@[simp] theorem State.writeS_hostq (s : State) (v : Word) : (s.writeS v).hostq = s.hostq := rfl
@[simp] theorem State.writeS_reply (s : State) (v : Word) : (s.writeS v).reply = s.reply := rfl
@[simp] theorem State.writeS_valid (s : State) (v : Word) (i : Item) :
    (s.writeS v).valid i = (s.valid i || decide (i = .S)) :=
  State.valid_validate _ _ _
@[simp] theorem State.writeS_comp (s : State) (v : Word) : (s.writeS v).comp = s.comp := rfl
@[simp] theorem State.writeS_dist (s : State) (v : Word) : (s.writeS v).dist = s.dist := rfl
@[simp] theorem State.writeS_streamAvail (s : State) (v : Word) :
    (s.writeS v).streamAvail = s.streamAvail := rfl
@[simp] theorem State.writeS_streamBytes (s : State) (v : Word) (k : Nat) :
    (s.writeS v).streamBytes k = s.streamBytes k := rfl

/-! ### writeArg -/

@[simp] theorem State.writeArg_regS (s : State) (v : Word) : (s.writeArg v).regS = s.regS := rfl
@[simp] theorem State.writeArg_regArg (s : State) (v : Word) : (s.writeArg v).regArg = v := rfl
@[simp] theorem State.writeArg_regRes (s : State) (v : Word) : (s.writeArg v).regRes = s.regRes := rfl
@[simp] theorem State.writeArg_fsm (s : State) (v : Word) : (s.writeArg v).fsm = s.fsm := rfl
@[simp] theorem State.writeArg_err (s : State) (v : Word) : (s.writeArg v).err = s.err := rfl
@[simp] theorem State.writeArg_cst (s : State) (v : Word) : (s.writeArg v).cst = s.cst := rfl
@[simp] theorem State.writeArg_mode (s : State) (v : Word) : (s.writeArg v).mode = s.mode := rfl
@[simp] theorem State.writeArg_vld (s : State) (v : Word) : (s.writeArg v).vld = s.vld ||| Item.ARG.mask := rfl
@[simp] theorem State.writeArg_icur (s : State) (v : Word) : (s.writeArg v).icur = s.icur := rfl
@[simp] theorem State.writeArg_ver (s : State) (v : Word) : (s.writeArg v).ver = s.ver := rfl
@[simp] theorem State.writeArg_ob (s : State) (v : Word) : (s.writeArg v).ob = s.ob := rfl
@[simp] theorem State.writeArg_key (s : State) (v : Word) : (s.writeArg v).key = s.key := rfl
@[simp] theorem State.writeArg_inp (s : State) (v : Word) : (s.writeArg v).inp = s.inp := rfl
@[simp] theorem State.writeArg_plain (s : State) (v : Word) : (s.writeArg v).plain = s.plain := rfl
@[simp] theorem State.writeArg_out (s : State) (v : Word) : (s.writeArg v).out = s.out := rfl
@[simp] theorem State.writeArg_hostq (s : State) (v : Word) : (s.writeArg v).hostq = s.hostq := rfl
@[simp] theorem State.writeArg_reply (s : State) (v : Word) : (s.writeArg v).reply = s.reply := rfl
@[simp] theorem State.writeArg_valid (s : State) (v : Word) (i : Item) :
    (s.writeArg v).valid i = (s.valid i || decide (i = .ARG)) :=
  State.valid_validate _ _ _
@[simp] theorem State.writeArg_comp (s : State) (v : Word) : (s.writeArg v).comp = s.comp := rfl
@[simp] theorem State.writeArg_dist (s : State) (v : Word) : (s.writeArg v).dist = s.dist := rfl
@[simp] theorem State.writeArg_streamAvail (s : State) (v : Word) :
    (s.writeArg v).streamAvail = s.streamAvail := rfl
@[simp] theorem State.writeArg_streamBytes (s : State) (v : Word) (k : Nat) :
    (s.writeArg v).streamBytes k = s.streamBytes k := rfl

/-! ### writeRes -/

@[simp] theorem State.writeRes_regS (s : State) (v : Word) : (s.writeRes v).regS = s.regS := rfl
@[simp] theorem State.writeRes_regArg (s : State) (v : Word) : (s.writeRes v).regArg = s.regArg := rfl
@[simp] theorem State.writeRes_regRes (s : State) (v : Word) : (s.writeRes v).regRes = v := rfl
@[simp] theorem State.writeRes_fsm (s : State) (v : Word) : (s.writeRes v).fsm = s.fsm := rfl
@[simp] theorem State.writeRes_err (s : State) (v : Word) : (s.writeRes v).err = s.err := rfl
@[simp] theorem State.writeRes_cst (s : State) (v : Word) : (s.writeRes v).cst = s.cst := rfl
@[simp] theorem State.writeRes_mode (s : State) (v : Word) : (s.writeRes v).mode = s.mode := rfl
@[simp] theorem State.writeRes_vld (s : State) (v : Word) : (s.writeRes v).vld = s.vld ||| Item.RES.mask := rfl
@[simp] theorem State.writeRes_icur (s : State) (v : Word) : (s.writeRes v).icur = s.icur := rfl
@[simp] theorem State.writeRes_ver (s : State) (v : Word) : (s.writeRes v).ver = s.ver := rfl
@[simp] theorem State.writeRes_ob (s : State) (v : Word) : (s.writeRes v).ob = s.ob := rfl
@[simp] theorem State.writeRes_key (s : State) (v : Word) : (s.writeRes v).key = s.key := rfl
@[simp] theorem State.writeRes_inp (s : State) (v : Word) : (s.writeRes v).inp = s.inp := rfl
@[simp] theorem State.writeRes_plain (s : State) (v : Word) : (s.writeRes v).plain = s.plain := rfl
@[simp] theorem State.writeRes_out (s : State) (v : Word) : (s.writeRes v).out = s.out := rfl
@[simp] theorem State.writeRes_hostq (s : State) (v : Word) : (s.writeRes v).hostq = s.hostq := rfl
@[simp] theorem State.writeRes_reply (s : State) (v : Word) : (s.writeRes v).reply = s.reply := rfl
@[simp] theorem State.writeRes_valid (s : State) (v : Word) (i : Item) :
    (s.writeRes v).valid i = (s.valid i || decide (i = .RES)) :=
  State.valid_validate _ _ _
@[simp] theorem State.writeRes_comp (s : State) (v : Word) : (s.writeRes v).comp = s.comp := rfl
@[simp] theorem State.writeRes_dist (s : State) (v : Word) : (s.writeRes v).dist = s.dist := rfl
@[simp] theorem State.writeRes_streamAvail (s : State) (v : Word) :
    (s.writeRes v).streamAvail = s.streamAvail := rfl
@[simp] theorem State.writeRes_streamBytes (s : State) (v : Word) (k : Nat) :
    (s.writeRes v).streamBytes k = s.streamBytes k := rfl

/-! ### writeVer -/

@[simp] theorem State.writeVer_regS (s : State) (v : Version) : (s.writeVer v).regS = s.regS := rfl
@[simp] theorem State.writeVer_regArg (s : State) (v : Version) : (s.writeVer v).regArg = s.regArg := rfl
@[simp] theorem State.writeVer_regRes (s : State) (v : Version) : (s.writeVer v).regRes = s.regRes := rfl
@[simp] theorem State.writeVer_fsm (s : State) (v : Version) : (s.writeVer v).fsm = s.fsm := rfl
@[simp] theorem State.writeVer_err (s : State) (v : Version) : (s.writeVer v).err = s.err := rfl
@[simp] theorem State.writeVer_cst (s : State) (v : Version) : (s.writeVer v).cst = s.cst := rfl
@[simp] theorem State.writeVer_mode (s : State) (v : Version) : (s.writeVer v).mode = s.mode := rfl
@[simp] theorem State.writeVer_vld (s : State) (v : Version) : (s.writeVer v).vld = s.vld ||| Item.VER.mask := rfl
@[simp] theorem State.writeVer_icur (s : State) (v : Version) : (s.writeVer v).icur = s.icur := rfl
@[simp] theorem State.writeVer_ver (s : State) (v : Version) : (s.writeVer v).ver = v := rfl
@[simp] theorem State.writeVer_ob (s : State) (v : Version) : (s.writeVer v).ob = s.ob := rfl
@[simp] theorem State.writeVer_key (s : State) (v : Version) : (s.writeVer v).key = s.key := rfl
@[simp] theorem State.writeVer_inp (s : State) (v : Version) : (s.writeVer v).inp = s.inp := rfl
@[simp] theorem State.writeVer_plain (s : State) (v : Version) : (s.writeVer v).plain = s.plain := rfl
@[simp] theorem State.writeVer_out (s : State) (v : Version) : (s.writeVer v).out = s.out := rfl
@[simp] theorem State.writeVer_hostq (s : State) (v : Version) : (s.writeVer v).hostq = s.hostq := rfl
@[simp] theorem State.writeVer_reply (s : State) (v : Version) : (s.writeVer v).reply = s.reply := rfl
@[simp] theorem State.writeVer_valid (s : State) (v : Version) (i : Item) :
    (s.writeVer v).valid i = (s.valid i || decide (i = .VER)) :=
  State.valid_validate _ _ _
@[simp] theorem State.writeVer_comp (s : State) (v : Version) : (s.writeVer v).comp = s.comp := rfl
@[simp] theorem State.writeVer_dist (s : State) (v : Version) : (s.writeVer v).dist = s.dist := rfl
@[simp] theorem State.writeVer_streamAvail (s : State) (v : Version) :
    (s.writeVer v).streamAvail = s.streamAvail := rfl
@[simp] theorem State.writeVer_streamBytes (s : State) (v : Version) (k : Nat) :
    (s.writeVer v).streamBytes k = s.streamBytes k := rfl

/-! ### writeOB -/

@[simp] theorem State.writeOB_regS (s : State) (b : Vector Byte 256) : (s.writeOB b).regS = s.regS := rfl
@[simp] theorem State.writeOB_regArg (s : State) (b : Vector Byte 256) : (s.writeOB b).regArg = s.regArg := rfl
@[simp] theorem State.writeOB_regRes (s : State) (b : Vector Byte 256) : (s.writeOB b).regRes = s.regRes := rfl
@[simp] theorem State.writeOB_fsm (s : State) (b : Vector Byte 256) : (s.writeOB b).fsm = s.fsm := rfl
@[simp] theorem State.writeOB_err (s : State) (b : Vector Byte 256) : (s.writeOB b).err = s.err := rfl
@[simp] theorem State.writeOB_cst (s : State) (b : Vector Byte 256) : (s.writeOB b).cst = s.cst := rfl
@[simp] theorem State.writeOB_mode (s : State) (b : Vector Byte 256) : (s.writeOB b).mode = s.mode := rfl
@[simp] theorem State.writeOB_vld (s : State) (b : Vector Byte 256) : (s.writeOB b).vld = s.vld ||| Item.OB.mask := rfl
@[simp] theorem State.writeOB_icur (s : State) (b : Vector Byte 256) : (s.writeOB b).icur = s.icur := rfl
@[simp] theorem State.writeOB_ver (s : State) (b : Vector Byte 256) : (s.writeOB b).ver = s.ver := rfl
@[simp] theorem State.writeOB_ob (s : State) (b : Vector Byte 256) : (s.writeOB b).ob = b := rfl
@[simp] theorem State.writeOB_key (s : State) (b : Vector Byte 256) : (s.writeOB b).key = s.key := rfl
@[simp] theorem State.writeOB_inp (s : State) (b : Vector Byte 256) : (s.writeOB b).inp = s.inp := rfl
@[simp] theorem State.writeOB_plain (s : State) (b : Vector Byte 256) : (s.writeOB b).plain = s.plain := rfl
@[simp] theorem State.writeOB_out (s : State) (b : Vector Byte 256) : (s.writeOB b).out = s.out := rfl
@[simp] theorem State.writeOB_hostq (s : State) (b : Vector Byte 256) : (s.writeOB b).hostq = s.hostq := rfl
@[simp] theorem State.writeOB_reply (s : State) (b : Vector Byte 256) : (s.writeOB b).reply = s.reply := rfl
@[simp] theorem State.writeOB_valid (s : State) (b : Vector Byte 256) (i : Item) :
    (s.writeOB b).valid i = (s.valid i || decide (i = .OB)) :=
  State.valid_validate _ _ _
@[simp] theorem State.writeOB_comp (s : State) (b : Vector Byte 256) : (s.writeOB b).comp = s.comp := rfl
@[simp] theorem State.writeOB_dist (s : State) (b : Vector Byte 256) : (s.writeOB b).dist = s.dist := rfl
@[simp] theorem State.writeOB_streamAvail (s : State) (b : Vector Byte 256) :
    (s.writeOB b).streamAvail = s.streamAvail := rfl
@[simp] theorem State.writeOB_streamBytes (s : State) (b : Vector Byte 256) (k : Nat) :
    (s.writeOB b).streamBytes k = s.streamBytes k := rfl

/-! ### writeKey -/

@[simp] theorem State.writeKey_regS (s : State) (b : Vector Byte 16) : (s.writeKey b).regS = s.regS := rfl
@[simp] theorem State.writeKey_regArg (s : State) (b : Vector Byte 16) : (s.writeKey b).regArg = s.regArg := rfl
@[simp] theorem State.writeKey_regRes (s : State) (b : Vector Byte 16) : (s.writeKey b).regRes = s.regRes := rfl
@[simp] theorem State.writeKey_fsm (s : State) (b : Vector Byte 16) : (s.writeKey b).fsm = s.fsm := rfl
@[simp] theorem State.writeKey_err (s : State) (b : Vector Byte 16) : (s.writeKey b).err = s.err := rfl
@[simp] theorem State.writeKey_cst (s : State) (b : Vector Byte 16) : (s.writeKey b).cst = s.cst := rfl
@[simp] theorem State.writeKey_mode (s : State) (b : Vector Byte 16) : (s.writeKey b).mode = s.mode := rfl
@[simp] theorem State.writeKey_vld (s : State) (b : Vector Byte 16) : (s.writeKey b).vld = s.vld ||| Item.KEY.mask := rfl
@[simp] theorem State.writeKey_icur (s : State) (b : Vector Byte 16) : (s.writeKey b).icur = s.icur := rfl
@[simp] theorem State.writeKey_ver (s : State) (b : Vector Byte 16) : (s.writeKey b).ver = s.ver := rfl
@[simp] theorem State.writeKey_ob (s : State) (b : Vector Byte 16) : (s.writeKey b).ob = s.ob := rfl
@[simp] theorem State.writeKey_key (s : State) (b : Vector Byte 16) : (s.writeKey b).key = b := rfl
@[simp] theorem State.writeKey_inp (s : State) (b : Vector Byte 16) : (s.writeKey b).inp = s.inp := rfl
@[simp] theorem State.writeKey_plain (s : State) (b : Vector Byte 16) : (s.writeKey b).plain = s.plain := rfl
@[simp] theorem State.writeKey_out (s : State) (b : Vector Byte 16) : (s.writeKey b).out = s.out := rfl
@[simp] theorem State.writeKey_hostq (s : State) (b : Vector Byte 16) : (s.writeKey b).hostq = s.hostq := rfl
@[simp] theorem State.writeKey_reply (s : State) (b : Vector Byte 16) : (s.writeKey b).reply = s.reply := rfl
@[simp] theorem State.writeKey_valid (s : State) (b : Vector Byte 16) (i : Item) :
    (s.writeKey b).valid i = (s.valid i || decide (i = .KEY)) :=
  State.valid_validate _ _ _
@[simp] theorem State.writeKey_comp (s : State) (b : Vector Byte 16) : (s.writeKey b).comp = s.comp := rfl
@[simp] theorem State.writeKey_dist (s : State) (b : Vector Byte 16) : (s.writeKey b).dist = s.dist := rfl
@[simp] theorem State.writeKey_streamAvail (s : State) (b : Vector Byte 16) :
    (s.writeKey b).streamAvail = s.streamAvail := rfl
@[simp] theorem State.writeKey_streamBytes (s : State) (b : Vector Byte 16) (k : Nat) :
    (s.writeKey b).streamBytes k = s.streamBytes k := rfl

/-! ### writeIn -/

@[simp] theorem State.writeIn_regS (s : State) (b : List Byte) : (s.writeIn b).regS = s.regS := rfl
@[simp] theorem State.writeIn_regArg (s : State) (b : List Byte) : (s.writeIn b).regArg = s.regArg := rfl
@[simp] theorem State.writeIn_regRes (s : State) (b : List Byte) : (s.writeIn b).regRes = s.regRes := rfl
@[simp] theorem State.writeIn_fsm (s : State) (b : List Byte) : (s.writeIn b).fsm = s.fsm := rfl
@[simp] theorem State.writeIn_err (s : State) (b : List Byte) : (s.writeIn b).err = s.err := rfl
@[simp] theorem State.writeIn_cst (s : State) (b : List Byte) : (s.writeIn b).cst = s.cst := rfl
@[simp] theorem State.writeIn_mode (s : State) (b : List Byte) : (s.writeIn b).mode = s.mode := rfl
@[simp] theorem State.writeIn_vld (s : State) (b : List Byte) : (s.writeIn b).vld = s.vld ||| Item.IN.mask := rfl
@[simp] theorem State.writeIn_icur (s : State) (b : List Byte) : (s.writeIn b).icur = 0 := rfl
@[simp] theorem State.writeIn_ver (s : State) (b : List Byte) : (s.writeIn b).ver = s.ver := rfl
@[simp] theorem State.writeIn_ob (s : State) (b : List Byte) : (s.writeIn b).ob = s.ob := rfl
@[simp] theorem State.writeIn_key (s : State) (b : List Byte) : (s.writeIn b).key = s.key := rfl
@[simp] theorem State.writeIn_inp (s : State) (b : List Byte) : (s.writeIn b).inp = b := rfl
@[simp] theorem State.writeIn_plain (s : State) (b : List Byte) : (s.writeIn b).plain = s.plain := rfl
@[simp] theorem State.writeIn_out (s : State) (b : List Byte) : (s.writeIn b).out = s.out := rfl
@[simp] theorem State.writeIn_hostq (s : State) (b : List Byte) : (s.writeIn b).hostq = s.hostq := rfl
@[simp] theorem State.writeIn_reply (s : State) (b : List Byte) : (s.writeIn b).reply = s.reply := rfl
@[simp] theorem State.writeIn_valid (s : State) (b : List Byte) (i : Item) :
    (s.writeIn b).valid i = (s.valid i || decide (i = .IN)) :=
  State.valid_validate _ _ _
@[simp] theorem State.writeIn_comp (s : State) (b : List Byte) : (s.writeIn b).comp = s.comp := rfl
@[simp] theorem State.writeIn_dist (s : State) (b : List Byte) : (s.writeIn b).dist = s.dist := rfl

/-! ### writePlain -/

@[simp] theorem State.writePlain_regS (s : State) (b : List Byte) : (s.writePlain b).regS = s.regS := rfl
@[simp] theorem State.writePlain_regArg (s : State) (b : List Byte) : (s.writePlain b).regArg = s.regArg := rfl
@[simp] theorem State.writePlain_regRes (s : State) (b : List Byte) : (s.writePlain b).regRes = s.regRes := rfl
@[simp] theorem State.writePlain_fsm (s : State) (b : List Byte) : (s.writePlain b).fsm = s.fsm := rfl
@[simp] theorem State.writePlain_err (s : State) (b : List Byte) : (s.writePlain b).err = s.err := rfl
@[simp] theorem State.writePlain_cst (s : State) (b : List Byte) : (s.writePlain b).cst = s.cst := rfl
@[simp] theorem State.writePlain_mode (s : State) (b : List Byte) : (s.writePlain b).mode = s.mode := rfl
@[simp] theorem State.writePlain_vld (s : State) (b : List Byte) : (s.writePlain b).vld = s.vld ||| Item.PLAIN.mask := rfl
@[simp] theorem State.writePlain_icur (s : State) (b : List Byte) : (s.writePlain b).icur = s.icur := rfl
@[simp] theorem State.writePlain_ver (s : State) (b : List Byte) : (s.writePlain b).ver = s.ver := rfl
@[simp] theorem State.writePlain_ob (s : State) (b : List Byte) : (s.writePlain b).ob = s.ob := rfl
@[simp] theorem State.writePlain_key (s : State) (b : List Byte) : (s.writePlain b).key = s.key := rfl
@[simp] theorem State.writePlain_inp (s : State) (b : List Byte) : (s.writePlain b).inp = s.inp := rfl
@[simp] theorem State.writePlain_plain (s : State) (b : List Byte) : (s.writePlain b).plain = b := rfl
@[simp] theorem State.writePlain_out (s : State) (b : List Byte) : (s.writePlain b).out = s.out := rfl
@[simp] theorem State.writePlain_hostq (s : State) (b : List Byte) : (s.writePlain b).hostq = s.hostq := rfl
@[simp] theorem State.writePlain_reply (s : State) (b : List Byte) : (s.writePlain b).reply = s.reply := rfl
@[simp] theorem State.writePlain_valid (s : State) (b : List Byte) (i : Item) :
    (s.writePlain b).valid i = (s.valid i || decide (i = .PLAIN)) :=
  State.valid_validate _ _ _
@[simp] theorem State.writePlain_comp (s : State) (b : List Byte) : (s.writePlain b).comp = s.comp := rfl
@[simp] theorem State.writePlain_dist (s : State) (b : List Byte) : (s.writePlain b).dist = s.dist := rfl
@[simp] theorem State.writePlain_streamAvail (s : State) (b : List Byte) :
    (s.writePlain b).streamAvail = s.streamAvail := rfl
@[simp] theorem State.writePlain_streamBytes (s : State) (b : List Byte) (k : Nat) :
    (s.writePlain b).streamBytes k = s.streamBytes k := rfl

/-! ### writeOut -/

@[simp] theorem State.writeOut_regS (s : State) (p : List Paragraph) : (s.writeOut p).regS = s.regS := rfl
@[simp] theorem State.writeOut_regArg (s : State) (p : List Paragraph) : (s.writeOut p).regArg = s.regArg := rfl
@[simp] theorem State.writeOut_regRes (s : State) (p : List Paragraph) : (s.writeOut p).regRes = s.regRes := rfl
@[simp] theorem State.writeOut_fsm (s : State) (p : List Paragraph) : (s.writeOut p).fsm = s.fsm := rfl
@[simp] theorem State.writeOut_err (s : State) (p : List Paragraph) : (s.writeOut p).err = s.err := rfl
@[simp] theorem State.writeOut_cst (s : State) (p : List Paragraph) : (s.writeOut p).cst = s.cst := rfl
@[simp] theorem State.writeOut_mode (s : State) (p : List Paragraph) : (s.writeOut p).mode = s.mode := rfl
@[simp] theorem State.writeOut_vld (s : State) (p : List Paragraph) : (s.writeOut p).vld = s.vld ||| Item.OUT.mask := rfl
@[simp] theorem State.writeOut_icur (s : State) (p : List Paragraph) : (s.writeOut p).icur = s.icur := rfl
@[simp] theorem State.writeOut_ver (s : State) (p : List Paragraph) : (s.writeOut p).ver = s.ver := rfl
@[simp] theorem State.writeOut_ob (s : State) (p : List Paragraph) : (s.writeOut p).ob = s.ob := rfl
@[simp] theorem State.writeOut_key (s : State) (p : List Paragraph) : (s.writeOut p).key = s.key := rfl
@[simp] theorem State.writeOut_inp (s : State) (p : List Paragraph) : (s.writeOut p).inp = s.inp := rfl
@[simp] theorem State.writeOut_plain (s : State) (p : List Paragraph) : (s.writeOut p).plain = s.plain := rfl
@[simp] theorem State.writeOut_out (s : State) (p : List Paragraph) : (s.writeOut p).out = p := rfl
@[simp] theorem State.writeOut_hostq (s : State) (p : List Paragraph) : (s.writeOut p).hostq = s.hostq := rfl
@[simp] theorem State.writeOut_reply (s : State) (p : List Paragraph) : (s.writeOut p).reply = s.reply := rfl
@[simp] theorem State.writeOut_valid (s : State) (p : List Paragraph) (i : Item) :
    (s.writeOut p).valid i = (s.valid i || decide (i = .OUT)) :=
  State.valid_validate _ _ _
@[simp] theorem State.writeOut_comp (s : State) (p : List Paragraph) : (s.writeOut p).comp = s.comp := rfl
@[simp] theorem State.writeOut_dist (s : State) (p : List Paragraph) : (s.writeOut p).dist = s.dist := rfl
@[simp] theorem State.writeOut_streamAvail (s : State) (p : List Paragraph) :
    (s.writeOut p).streamAvail = s.streamAvail := rfl
@[simp] theorem State.writeOut_streamBytes (s : State) (p : List Paragraph) (k : Nat) :
    (s.writeOut p).streamBytes k = s.streamBytes k := rfl

/-! ### setFsm -/

@[simp] theorem State.setFsm_regS (s : State) (g : Stage) : (s.setFsm g).regS = s.regS := rfl
@[simp] theorem State.setFsm_regArg (s : State) (g : Stage) : (s.setFsm g).regArg = s.regArg := rfl
@[simp] theorem State.setFsm_regRes (s : State) (g : Stage) : (s.setFsm g).regRes = s.regRes := rfl
@[simp] theorem State.setFsm_fsm (s : State) (g : Stage) : (s.setFsm g).fsm = g.code := rfl
@[simp] theorem State.setFsm_err (s : State) (g : Stage) : (s.setFsm g).err = s.err := rfl
@[simp] theorem State.setFsm_cst (s : State) (g : Stage) : (s.setFsm g).cst = s.cst := rfl
@[simp] theorem State.setFsm_mode (s : State) (g : Stage) : (s.setFsm g).mode = s.mode := rfl
@[simp] theorem State.setFsm_vld (s : State) (g : Stage) : (s.setFsm g).vld = s.vld := rfl
@[simp] theorem State.setFsm_icur (s : State) (g : Stage) : (s.setFsm g).icur = s.icur := rfl
@[simp] theorem State.setFsm_ver (s : State) (g : Stage) : (s.setFsm g).ver = s.ver := rfl
@[simp] theorem State.setFsm_ob (s : State) (g : Stage) : (s.setFsm g).ob = s.ob := rfl
@[simp] theorem State.setFsm_key (s : State) (g : Stage) : (s.setFsm g).key = s.key := rfl
@[simp] theorem State.setFsm_inp (s : State) (g : Stage) : (s.setFsm g).inp = s.inp := rfl
@[simp] theorem State.setFsm_plain (s : State) (g : Stage) : (s.setFsm g).plain = s.plain := rfl
@[simp] theorem State.setFsm_out (s : State) (g : Stage) : (s.setFsm g).out = s.out := rfl
@[simp] theorem State.setFsm_hostq (s : State) (g : Stage) : (s.setFsm g).hostq = s.hostq := rfl
@[simp] theorem State.setFsm_reply (s : State) (g : Stage) : (s.setFsm g).reply = s.reply := rfl
@[simp] theorem State.setFsm_valid (s : State) (g : Stage) (i : Item) : (s.setFsm g).valid i = s.valid i := rfl
@[simp] theorem State.setFsm_comp (s : State) (g : Stage) : (s.setFsm g).comp = s.comp := rfl
@[simp] theorem State.setFsm_dist (s : State) (g : Stage) : (s.setFsm g).dist = s.dist := rfl
@[simp] theorem State.setFsm_streamAvail (s : State) (g : Stage) :
    (s.setFsm g).streamAvail = s.streamAvail := rfl
@[simp] theorem State.setFsm_streamBytes (s : State) (g : Stage) (k : Nat) :
    (s.setFsm g).streamBytes k = s.streamBytes k := rfl

/-! ### setErr -/

@[simp] theorem State.setErr_regS (s : State) (v : BitVec 6) : (s.setErr v).regS = s.regS := rfl
@[simp] theorem State.setErr_regArg (s : State) (v : BitVec 6) : (s.setErr v).regArg = s.regArg := rfl
@[simp] theorem State.setErr_regRes (s : State) (v : BitVec 6) : (s.setErr v).regRes = s.regRes := rfl
@[simp] theorem State.setErr_fsm (s : State) (v : BitVec 6) : (s.setErr v).fsm = s.fsm := rfl
@[simp] theorem State.setErr_err (s : State) (v : BitVec 6) : (s.setErr v).err = v := rfl
@[simp] theorem State.setErr_cst (s : State) (v : BitVec 6) : (s.setErr v).cst = s.cst := rfl
@[simp] theorem State.setErr_mode (s : State) (v : BitVec 6) : (s.setErr v).mode = s.mode := rfl
@[simp] theorem State.setErr_vld (s : State) (v : BitVec 6) : (s.setErr v).vld = s.vld := rfl
@[simp] theorem State.setErr_icur (s : State) (v : BitVec 6) : (s.setErr v).icur = s.icur := rfl
@[simp] theorem State.setErr_ver (s : State) (v : BitVec 6) : (s.setErr v).ver = s.ver := rfl
@[simp] theorem State.setErr_ob (s : State) (v : BitVec 6) : (s.setErr v).ob = s.ob := rfl
@[simp] theorem State.setErr_key (s : State) (v : BitVec 6) : (s.setErr v).key = s.key := rfl
@[simp] theorem State.setErr_inp (s : State) (v : BitVec 6) : (s.setErr v).inp = s.inp := rfl
@[simp] theorem State.setErr_plain (s : State) (v : BitVec 6) : (s.setErr v).plain = s.plain := rfl
@[simp] theorem State.setErr_out (s : State) (v : BitVec 6) : (s.setErr v).out = s.out := rfl
@[simp] theorem State.setErr_hostq (s : State) (v : BitVec 6) : (s.setErr v).hostq = s.hostq := rfl
@[simp] theorem State.setErr_reply (s : State) (v : BitVec 6) : (s.setErr v).reply = s.reply := rfl
@[simp] theorem State.setErr_valid (s : State) (v : BitVec 6) (i : Item) : (s.setErr v).valid i = s.valid i := rfl
@[simp] theorem State.setErr_comp (s : State) (v : BitVec 6) : (s.setErr v).comp = s.comp := rfl
@[simp] theorem State.setErr_dist (s : State) (v : BitVec 6) : (s.setErr v).dist = s.dist := rfl
@[simp] theorem State.setErr_streamAvail (s : State) (v : BitVec 6) :
    (s.setErr v).streamAvail = s.streamAvail := rfl
@[simp] theorem State.setErr_streamBytes (s : State) (v : BitVec 6) (k : Nat) :
    (s.setErr v).streamBytes k = s.streamBytes k := rfl

/-! ### setCst -/

@[simp] theorem State.setCst_regS (s : State) (c : Status) : (s.setCst c).regS = s.regS := rfl
@[simp] theorem State.setCst_regArg (s : State) (c : Status) : (s.setCst c).regArg = s.regArg := rfl
@[simp] theorem State.setCst_regRes (s : State) (c : Status) : (s.setCst c).regRes = s.regRes := rfl
@[simp] theorem State.setCst_fsm (s : State) (c : Status) : (s.setCst c).fsm = s.fsm := rfl
@[simp] theorem State.setCst_err (s : State) (c : Status) : (s.setCst c).err = s.err := rfl
@[simp] theorem State.setCst_cst (s : State) (c : Status) : (s.setCst c).cst = c.code := rfl
@[simp] theorem State.setCst_mode (s : State) (c : Status) : (s.setCst c).mode = s.mode := rfl
@[simp] theorem State.setCst_vld (s : State) (c : Status) : (s.setCst c).vld = s.vld := rfl
@[simp] theorem State.setCst_icur (s : State) (c : Status) : (s.setCst c).icur = s.icur := rfl
@[simp] theorem State.setCst_ver (s : State) (c : Status) : (s.setCst c).ver = s.ver := rfl
@[simp] theorem State.setCst_ob (s : State) (c : Status) : (s.setCst c).ob = s.ob := rfl
@[simp] theorem State.setCst_key (s : State) (c : Status) : (s.setCst c).key = s.key := rfl
@[simp] theorem State.setCst_inp (s : State) (c : Status) : (s.setCst c).inp = s.inp := rfl
@[simp] theorem State.setCst_plain (s : State) (c : Status) : (s.setCst c).plain = s.plain := rfl
@[simp] theorem State.setCst_out (s : State) (c : Status) : (s.setCst c).out = s.out := rfl
@[simp] theorem State.setCst_hostq (s : State) (c : Status) : (s.setCst c).hostq = s.hostq := rfl
@[simp] theorem State.setCst_reply (s : State) (c : Status) : (s.setCst c).reply = s.reply := rfl
@[simp] theorem State.setCst_valid (s : State) (c : Status) (i : Item) : (s.setCst c).valid i = s.valid i := rfl
@[simp] theorem State.setCst_comp (s : State) (c : Status) : (s.setCst c).comp = s.comp := rfl
@[simp] theorem State.setCst_dist (s : State) (c : Status) : (s.setCst c).dist = s.dist := rfl
@[simp] theorem State.setCst_streamAvail (s : State) (c : Status) :
    (s.setCst c).streamAvail = s.streamAvail := rfl
@[simp] theorem State.setCst_streamBytes (s : State) (c : Status) (k : Nat) :
    (s.setCst c).streamBytes k = s.streamBytes k := rfl

/-! ### setMode -/

@[simp] theorem State.setMode_regS (s : State) (v : BitVec 2) : (s.setMode v).regS = s.regS := rfl
@[simp] theorem State.setMode_regArg (s : State) (v : BitVec 2) : (s.setMode v).regArg = s.regArg := rfl
@[simp] theorem State.setMode_regRes (s : State) (v : BitVec 2) : (s.setMode v).regRes = s.regRes := rfl
@[simp] theorem State.setMode_fsm (s : State) (v : BitVec 2) : (s.setMode v).fsm = s.fsm := rfl
@[simp] theorem State.setMode_err (s : State) (v : BitVec 2) : (s.setMode v).err = s.err := rfl
@[simp] theorem State.setMode_cst (s : State) (v : BitVec 2) : (s.setMode v).cst = s.cst := rfl
@[simp] theorem State.setMode_mode (s : State) (v : BitVec 2) : (s.setMode v).mode = v := rfl
@[simp] theorem State.setMode_vld (s : State) (v : BitVec 2) : (s.setMode v).vld = s.vld := rfl
@[simp] theorem State.setMode_icur (s : State) (v : BitVec 2) : (s.setMode v).icur = s.icur := rfl
@[simp] theorem State.setMode_ver (s : State) (v : BitVec 2) : (s.setMode v).ver = s.ver := rfl
@[simp] theorem State.setMode_ob (s : State) (v : BitVec 2) : (s.setMode v).ob = s.ob := rfl
@[simp] theorem State.setMode_key (s : State) (v : BitVec 2) : (s.setMode v).key = s.key := rfl
@[simp] theorem State.setMode_inp (s : State) (v : BitVec 2) : (s.setMode v).inp = s.inp := rfl
@[simp] theorem State.setMode_plain (s : State) (v : BitVec 2) : (s.setMode v).plain = s.plain := rfl
@[simp] theorem State.setMode_out (s : State) (v : BitVec 2) : (s.setMode v).out = s.out := rfl
@[simp] theorem State.setMode_hostq (s : State) (v : BitVec 2) : (s.setMode v).hostq = s.hostq := rfl
@[simp] theorem State.setMode_reply (s : State) (v : BitVec 2) : (s.setMode v).reply = s.reply := rfl
@[simp] theorem State.setMode_valid (s : State) (v : BitVec 2) (i : Item) : (s.setMode v).valid i = s.valid i := rfl
@[simp] theorem State.setMode_streamAvail (s : State) (v : BitVec 2) :
    (s.setMode v).streamAvail = s.streamAvail := rfl
@[simp] theorem State.setMode_streamBytes (s : State) (v : BitVec 2) (k : Nat) :
    (s.setMode v).streamBytes k = s.streamBytes k := rfl

/-! ### setIcur -/

@[simp] theorem State.setIcur_regS (s : State) (n : Nat) : (s.setIcur n).regS = s.regS := rfl
@[simp] theorem State.setIcur_regArg (s : State) (n : Nat) : (s.setIcur n).regArg = s.regArg := rfl
@[simp] theorem State.setIcur_regRes (s : State) (n : Nat) : (s.setIcur n).regRes = s.regRes := rfl
@[simp] theorem State.setIcur_fsm (s : State) (n : Nat) : (s.setIcur n).fsm = s.fsm := rfl
@[simp] theorem State.setIcur_err (s : State) (n : Nat) : (s.setIcur n).err = s.err := rfl
@[simp] theorem State.setIcur_cst (s : State) (n : Nat) : (s.setIcur n).cst = s.cst := rfl
@[simp] theorem State.setIcur_mode (s : State) (n : Nat) : (s.setIcur n).mode = s.mode := rfl
@[simp] theorem State.setIcur_vld (s : State) (n : Nat) : (s.setIcur n).vld = s.vld := rfl
@[simp] theorem State.setIcur_icur (s : State) (n : Nat) : (s.setIcur n).icur = n := rfl
@[simp] theorem State.setIcur_ver (s : State) (n : Nat) : (s.setIcur n).ver = s.ver := rfl
@[simp] theorem State.setIcur_ob (s : State) (n : Nat) : (s.setIcur n).ob = s.ob := rfl
@[simp] theorem State.setIcur_key (s : State) (n : Nat) : (s.setIcur n).key = s.key := rfl
@[simp] theorem State.setIcur_inp (s : State) (n : Nat) : (s.setIcur n).inp = s.inp := rfl
@[simp] theorem State.setIcur_plain (s : State) (n : Nat) : (s.setIcur n).plain = s.plain := rfl
@[simp] theorem State.setIcur_out (s : State) (n : Nat) : (s.setIcur n).out = s.out := rfl
@[simp] theorem State.setIcur_hostq (s : State) (n : Nat) : (s.setIcur n).hostq = s.hostq := rfl
@[simp] theorem State.setIcur_reply (s : State) (n : Nat) : (s.setIcur n).reply = s.reply := rfl
@[simp] theorem State.setIcur_valid (s : State) (n : Nat) (i : Item) : (s.setIcur n).valid i = s.valid i := rfl
@[simp] theorem State.setIcur_comp (s : State) (n : Nat) : (s.setIcur n).comp = s.comp := rfl
@[simp] theorem State.setIcur_dist (s : State) (n : Nat) : (s.setIcur n).dist = s.dist := rfl

/-! ### refuse -/

@[simp] theorem State.refuse_regS (s : State) (r : Status) : (s.refuse r).regS = s.regS := rfl
@[simp] theorem State.refuse_regArg (s : State) (r : Status) : (s.refuse r).regArg = s.regArg := rfl
@[simp] theorem State.refuse_regRes (s : State) (r : Status) : (s.refuse r).regRes = s.regRes := rfl
@[simp] theorem State.refuse_fsm (s : State) (r : Status) : (s.refuse r).fsm = s.fsm := rfl
@[simp] theorem State.refuse_err (s : State) (r : Status) : (s.refuse r).err = s.err := rfl
@[simp] theorem State.refuse_cst (s : State) (r : Status) : (s.refuse r).cst = r.code := rfl
@[simp] theorem State.refuse_mode (s : State) (r : Status) : (s.refuse r).mode = s.mode := rfl
@[simp] theorem State.refuse_vld (s : State) (r : Status) : (s.refuse r).vld = s.vld := rfl
@[simp] theorem State.refuse_icur (s : State) (r : Status) : (s.refuse r).icur = s.icur := rfl
@[simp] theorem State.refuse_ver (s : State) (r : Status) : (s.refuse r).ver = s.ver := rfl
@[simp] theorem State.refuse_ob (s : State) (r : Status) : (s.refuse r).ob = s.ob := rfl
@[simp] theorem State.refuse_key (s : State) (r : Status) : (s.refuse r).key = s.key := rfl
@[simp] theorem State.refuse_inp (s : State) (r : Status) : (s.refuse r).inp = s.inp := rfl
@[simp] theorem State.refuse_plain (s : State) (r : Status) : (s.refuse r).plain = s.plain := rfl
@[simp] theorem State.refuse_out (s : State) (r : Status) : (s.refuse r).out = s.out := rfl
@[simp] theorem State.refuse_hostq (s : State) (r : Status) : (s.refuse r).hostq = s.hostq := rfl
@[simp] theorem State.refuse_reply (s : State) (r : Status) : (s.refuse r).reply = s.reply := rfl
@[simp] theorem State.refuse_valid (s : State) (r : Status) (i : Item) : (s.refuse r).valid i = s.valid i := rfl
@[simp] theorem State.refuse_comp (s : State) (r : Status) : (s.refuse r).comp = s.comp := rfl
@[simp] theorem State.refuse_dist (s : State) (r : Status) : (s.refuse r).dist = s.dist := rfl
@[simp] theorem State.refuse_streamAvail (s : State) (r : Status) :
    (s.refuse r).streamAvail = s.streamAvail := rfl
@[simp] theorem State.refuse_streamBytes (s : State) (r : Status) (k : Nat) :
    (s.refuse r).streamBytes k = s.streamBytes k := rfl

/-! ### streamAdvance -/

@[simp] theorem State.streamAdvance_regS (s : State) (n : Nat) : (s.streamAdvance n).regS = s.regS := rfl
@[simp] theorem State.streamAdvance_regArg (s : State) (n : Nat) : (s.streamAdvance n).regArg = s.regArg := rfl
@[simp] theorem State.streamAdvance_regRes (s : State) (n : Nat) : (s.streamAdvance n).regRes = s.regRes := rfl
@[simp] theorem State.streamAdvance_fsm (s : State) (n : Nat) : (s.streamAdvance n).fsm = s.fsm := rfl
@[simp] theorem State.streamAdvance_err (s : State) (n : Nat) : (s.streamAdvance n).err = s.err := rfl
@[simp] theorem State.streamAdvance_cst (s : State) (n : Nat) : (s.streamAdvance n).cst = s.cst := rfl
@[simp] theorem State.streamAdvance_mode (s : State) (n : Nat) : (s.streamAdvance n).mode = s.mode := rfl
@[simp] theorem State.streamAdvance_vld (s : State) (n : Nat) : (s.streamAdvance n).vld = s.vld := rfl
@[simp] theorem State.streamAdvance_icur (s : State) (n : Nat) : (s.streamAdvance n).icur = s.icur + n := rfl
@[simp] theorem State.streamAdvance_ver (s : State) (n : Nat) : (s.streamAdvance n).ver = s.ver := rfl
@[simp] theorem State.streamAdvance_ob (s : State) (n : Nat) : (s.streamAdvance n).ob = s.ob := rfl
@[simp] theorem State.streamAdvance_key (s : State) (n : Nat) : (s.streamAdvance n).key = s.key := rfl
@[simp] theorem State.streamAdvance_inp (s : State) (n : Nat) : (s.streamAdvance n).inp = s.inp := rfl
@[simp] theorem State.streamAdvance_plain (s : State) (n : Nat) : (s.streamAdvance n).plain = s.plain := rfl
@[simp] theorem State.streamAdvance_out (s : State) (n : Nat) : (s.streamAdvance n).out = s.out := rfl
@[simp] theorem State.streamAdvance_hostq (s : State) (n : Nat) : (s.streamAdvance n).hostq = s.hostq := rfl
@[simp] theorem State.streamAdvance_reply (s : State) (n : Nat) : (s.streamAdvance n).reply = s.reply := rfl
@[simp] theorem State.streamAdvance_valid (s : State) (n : Nat) (i : Item) : (s.streamAdvance n).valid i = s.valid i := rfl
@[simp] theorem State.streamAdvance_comp (s : State) (n : Nat) : (s.streamAdvance n).comp = s.comp := rfl
@[simp] theorem State.streamAdvance_dist (s : State) (n : Nat) : (s.streamAdvance n).dist = s.dist := rfl

/-! ### answer -/

@[simp] theorem State.answer_regS (s : State) (v : Option HostValue) : (s.answer v).regS = s.regS := rfl
@[simp] theorem State.answer_regArg (s : State) (v : Option HostValue) : (s.answer v).regArg = s.regArg := rfl
@[simp] theorem State.answer_regRes (s : State) (v : Option HostValue) : (s.answer v).regRes = s.regRes := rfl
@[simp] theorem State.answer_fsm (s : State) (v : Option HostValue) : (s.answer v).fsm = s.fsm := rfl
@[simp] theorem State.answer_err (s : State) (v : Option HostValue) : (s.answer v).err = s.err := rfl
@[simp] theorem State.answer_cst (s : State) (v : Option HostValue) : (s.answer v).cst = s.cst := rfl
@[simp] theorem State.answer_mode (s : State) (v : Option HostValue) : (s.answer v).mode = s.mode := rfl
@[simp] theorem State.answer_vld (s : State) (v : Option HostValue) : (s.answer v).vld = s.vld := rfl
@[simp] theorem State.answer_icur (s : State) (v : Option HostValue) : (s.answer v).icur = s.icur := rfl
@[simp] theorem State.answer_ver (s : State) (v : Option HostValue) : (s.answer v).ver = s.ver := rfl
@[simp] theorem State.answer_ob (s : State) (v : Option HostValue) : (s.answer v).ob = s.ob := rfl
@[simp] theorem State.answer_key (s : State) (v : Option HostValue) : (s.answer v).key = s.key := rfl
@[simp] theorem State.answer_inp (s : State) (v : Option HostValue) : (s.answer v).inp = s.inp := rfl
@[simp] theorem State.answer_plain (s : State) (v : Option HostValue) : (s.answer v).plain = s.plain := rfl
@[simp] theorem State.answer_out (s : State) (v : Option HostValue) : (s.answer v).out = s.out := rfl
@[simp] theorem State.answer_hostq (s : State) (v : Option HostValue) : (s.answer v).hostq = s.hostq := rfl
@[simp] theorem State.answer_reply (s : State) (v : Option HostValue) : (s.answer v).reply = v := rfl
@[simp] theorem State.answer_valid (s : State) (v : Option HostValue) (i : Item) : (s.answer v).valid i = s.valid i := rfl
@[simp] theorem State.answer_comp (s : State) (v : Option HostValue) : (s.answer v).comp = s.comp := rfl
@[simp] theorem State.answer_dist (s : State) (v : Option HostValue) : (s.answer v).dist = s.dist := rfl
@[simp] theorem State.answer_streamAvail (s : State) (v : Option HostValue) :
    (s.answer v).streamAvail = s.streamAvail := rfl
@[simp] theorem State.answer_streamBytes (s : State) (v : Option HostValue) (k : Nat) :
    (s.answer v).streamBytes k = s.streamBytes k := rfl

end Sys2Proof.Machine
end

