-- ==== Sys2Proof/Laws/Ops.lean ====
section
/-! SUPPORT. What the shared operations do, once: sequences and buffers, the require line, the error entry, the stages'
plumbing, the sequential reads, and that `exec` is the meaning at `Config.params`. -/

namespace Sys2Proof.Machine

/-! ### Sequences and buffers -/

theorem slice_length (a b : Nat) (l : List Byte) : (slice a b l).length = min (b - a) (l.length - a) := by
  simp [slice]

theorem slice_getElem? (a b i : Nat) (l : List Byte) (h : i < b - a) : (slice a b l)[i]? = l[a + i]? := by
  simp [slice, h]

theorem toBuffer_getElem (n : Nat) (l : List Byte) (i : Nat) (h : i < n) : (toBuffer n l)[i] = l.getD i 0 := by
  simp [toBuffer]

/-- A buffer of a sequence of its own length holds that sequence. -/
theorem toBuffer_toList (n : Nat) (l : List Byte) (h : l.length = n) : (toBuffer n l).toList = l := by
  apply List.ext_getElem
  · simp [h]
  · intro i h1 h2
    simp [toBuffer, List.getElem?_eq_getElem h2]

/-! ### The require line -/

theorem State.require_of_valid (s : State) (i : Instr) (f : State → State) (h : s.operandsValid i = true) :
    s.require i f = f s := by
  simp [State.require, h]

theorem State.require_of_invalid (s : State) (i : Instr) (f : State → State) (h : s.operandsValid i = false) :
    s.require i f = s.refuse .useBeforeWrite := by
  simp [State.require, h]

/-! ### The error entry -/

/-- What the error entry leaves, whole (R300). -/
theorem State.errorEntry_eq (b : Bool) (k : ErrKind) (g : Stage) (s : State) :
    s.errorEntry b k g =
      { s with
        err := errCode k g
        fsm := if b then Stage.failed.code else s.fsm
        vld := (((s.vld &&& ~~~Item.OUT.mask) &&& ~~~Item.PLAIN.mask) &&& ~~~Item.IN.mask) &&& ~~~Item.KEY.mask
        cst := Status.ok.code } := by
  cases b <;> rfl

@[simp] theorem State.errorEntry_valid (b : Bool) (k : ErrKind) (g : Stage) (s : State) (a : Item) :
    (s.errorEntry b k g).valid a =
      (s.valid a && !decide (a = .OUT) && !decide (a = .PLAIN) && !decide (a = .IN) && !decide (a = .KEY)) := by
  cases b <;> simp [State.errorEntry]

/-! ### Stages -/

@[simp] theorem StageOut.andThen_ok {α β : Type} (v : α) (s : State) (f : α → State → StageOut β) :
    (StageOut.ok v s).andThen f = f v s := rfl

@[simp] theorem StageOut.andThen_err {α β : Type} (k : ErrKind) (g : Stage) (s : State) (f : α → State → StageOut β) :
    (StageOut.err k g s).andThen f = .err k g s := rfl

@[simp] theorem StageOut.finish_ok {α : Type} (b : Bool) (v : α) (s : State) :
    (StageOut.ok v s).finish b = s.setCst .ok := rfl

@[simp] theorem StageOut.finish_err {α : Type} (b : Bool) (k : ErrKind) (g : Stage) (s : State) :
    (StageOut.err k g s : StageOut α).finish b = s.errorEntry b k g := rfl

/-! ### Sequential reads -/

/-- `StreamRest()` returns everything at and after the cursor (R12). -/
theorem State.streamBytes_avail (s : State) : s.streamBytes s.streamAvail = s.inp.drop s.icur := by
  simp only [State.streamBytes, State.streamAvail, slice, Nat.add_sub_cancel_left]
  exact List.take_of_length_le (by simp)

/-- After `StreamRest()` the cursor is at the end of the stream (R173). -/
theorem State.streamAdvance_avail (s : State) (h : s.icur ≤ s.inp.length) :
    (s.streamAdvance s.streamAvail).icur = s.inp.length := by
  simp only [State.streamAdvance_icur, State.streamAvail]
  omega

/-- A read that the stream can serve keeps the cursor inside the stream. -/
theorem State.streamAdvance_bound (s : State) (n : Nat) (hs : s.icur ≤ s.inp.length) (hn : n ≤ s.streamAvail) :
    (s.streamAdvance n).icur ≤ (s.streamAdvance n).inp.length := by
  simp only [State.streamAdvance_icur, State.streamAdvance_inp, State.streamAvail] at *
  omega

/-! ### exec -/

/-- `exec` is the meaning at `Config.params`, and always answers a next state. -/
theorem exec_eq_commandWith (i : Instr) (s : State) : exec i s = .next (commandWith Config.params i s) := by
  cases i <;> rfl

end Sys2Proof.Machine
end

