-- ==== Sys2Proof/Laws/Assembly.lean ====
section
/-! SUPPORT. What the record-stream parser does, once: the loop of R238 answers exactly the splittings of the stream into
whole records, and there is at most one. -/

namespace Sys2Proof.Machine

/-- A delivered header fits the bytes it was read from (R230). -/
theorem frameAt_hlen_le {P : Params} {rest : List Byte} {h : Header} (hf : frameAt P rest = some h) :
    h.hlen ≤ rest.length := by
  unfold frameAt at hf
  split at hf
  · split at hf
    · cases hf
      assumption
    · cases hf
  · cases hf

/-- No header is delivered from no bytes. -/
theorem frameAt_nil (P : Params) : frameAt P [] = none := by
  cases hf : frameAt P [] with
  | none => rfl
  | some h => exact absurd (frameAt_hlen_le hf) (by simpa using Nat.pos_iff_ne_zero.mp h.hlen_pos)

/-- The empty stream splits into no record, and into nothing else. -/
theorem splitsInto_nil_iff (P : Params) (ver : Version) (ps : List Paragraph) : SplitsInto P ver [] ps ↔ ps = [] := by
  constructor
  · intro h
    cases h with
    | nil => rfl
    | cons _ h _ framed _ _ => rw [frameAt_nil] at framed; cases framed
  · rintro rfl
    exact .nil

/-- A stream whose first header is `h` splits exactly as its first record and a splitting of the rest. -/
theorem splitsInto_framed_iff {P : Params} {ver : Version} {rest : List Byte} {h : Header} {ps : List Paragraph}
    (hf : frameAt P rest = some h) :
    SplitsInto P ver rest ps ↔ h.hlen + h.size.toNat ≤ rest.length ∧
      ∃ qs, SplitsInto P ver (rest.drop (h.hlen + h.size.toNat)) qs ∧
        ps = P.paraDecode ⟨h.tagId, h.level, h.size, (rest.drop h.hlen).take h.size.toNat⟩ ver :: qs := by
  constructor
  · intro hs
    cases hs with
    | nil => rw [frameAt_nil] at hf; cases hf
    | cons _ h' qs framed whole more =>
      rw [hf] at framed
      cases framed
      exact ⟨whole, qs, more, rfl⟩
  · rintro ⟨whole, qs, more, rfl⟩
    exact .cons rest h qs hf whole more

/-- The loop of R238 from `rc`, with enough passes: it answers what it has so far and a splitting of what is left. -/
theorem rpaLoop_eq_some_iff (P : Params) (ver : Version) (plain : List Byte) :
    ∀ (n rc : Nat) (outq out : List Paragraph), plain.length ≤ n + rc → rc ≤ plain.length →
      (rpaLoop P ver plain n rc outq = some out ↔ ∃ ps, SplitsInto P ver (plain.drop rc) ps ∧ out = outq ++ ps) := by
  intro n
  induction n with
  | zero =>
    intro rc outq out hn hrc
    obtain rfl : rc = plain.length := by omega
    simp [rpaLoop, splitsInto_nil_iff, eq_comm]
  | succ n ih =>
    intro rc outq out hn hrc
    rw [rpaLoop]
    split
    · next hlt =>
      cases hf : frameAt P (plain.drop rc) with
      | none =>
        simp only [rpaNext, hf]
        constructor
        · intro h
          cases h
        · rintro ⟨ps, hs, -⟩
          generalize hg : plain.drop rc = rest at hs hf
          cases hs with
          | nil => simp at hg; omega
          | cons _ h _ framed _ _ => rw [hf] at framed; cases framed
      | some h =>
        have hle := frameAt_hlen_le hf
        have hpos := h.hlen_pos
        simp only [List.length_drop] at hle
        simp only [splitsInto_framed_iff hf, rpaNext, hf, List.length_drop, List.drop_drop, slice,
          Nat.add_sub_cancel_left]
        by_cases hs : h.size.toNat > plain.length - (rc + h.hlen)
        · simp only [hs, if_true]
          constructor
          · intro h
            cases h
          · rintro ⟨ps, ⟨hw, -⟩, -⟩
            omega
        · simp only [hs, if_false]
          rw [ih _ _ _ (by omega) (by omega), ← Nat.add_assoc]
          constructor
          · rintro ⟨ps, hps, rfl⟩
            exact ⟨_, ⟨by omega, ps, hps, rfl⟩, by simp⟩
          · rintro ⟨_, ⟨-, qs, hqs, rfl⟩, rfl⟩
            exact ⟨qs, hqs, by simp⟩
    · obtain rfl : rc = plain.length := by omega
      simp [splitsInto_nil_iff, eq_comm]

/-- `assemble` answers a section exactly when the stream splits into whole records (R238). -/
theorem assemble_eq_some_iff (P : Params) (ver : Version) (plain : List Byte) (ps : List Paragraph) :
    assemble P ver plain = some ps ↔ SplitsInto P ver plain ps := by
  rw [assemble, rpaLoop_eq_some_iff P ver plain _ _ _ _ (by omega) (by omega)]
  simp

/-- `assemble` answers nothing exactly when the stream does not split into whole records (R234). -/
theorem assemble_eq_none_iff (P : Params) (ver : Version) (plain : List Byte) :
    assemble P ver plain = none ↔ ¬∃ ps, SplitsInto P ver plain ps := by
  simp only [← assemble_eq_some_iff]
  cases assemble P ver plain <;> simp

end Sys2Proof.Machine
end

