-- ==== Sys2Proof/Laws/Ddp.lean ====
section
/-! SUPPORT. What the decrypt/decompress pipeline does, once: the length and the blocks of the ECB stage, and the whole
next state of a DDP.DECODE whose operands are valid. -/

namespace Sys2Proof.Machine

/-- A run of 16-byte blocks: its length, and its `b`-th block. -/
theorem flatMap_blocks (f : Nat → List Byte) (hf : ∀ b, (f b).length = 16) (n : Nat) :
    ((List.range n).flatMap f).length = 16 * n ∧
      ∀ b, b < n → (((List.range n).flatMap f).drop (16 * b)).take 16 = f b := by
  induction n with
  | zero => simp
  | succ n ih =>
    simp only [List.range_succ, List.flatMap_append, List.flatMap_cons, List.flatMap_nil, List.append_nil]
    refine ⟨by simp only [List.length_append, ih.1, hf]; omega, fun b hb => ?_⟩
    by_cases h : b < n
    · rw [List.drop_append_of_le_length (by rw [ih.1]; omega), List.take_append_of_le_length, ih.2 b h]
      simp only [List.length_drop, ih.1]
      omega
    · obtain rfl : b = n := by omega
      rw [List.drop_append, List.drop_of_length_le (by rw [ih.1]), ih.1]
      simpa using (hf b).le

/-- The ECB stage answers one block for each whole block (R163). -/
theorem ecbDecrypt_length (P : Params) (key : Vector Byte 16) (ct : List Byte) :
    (ecbDecrypt P key ct).length = 16 * (ct.length / 16) :=
  (flatMap_blocks _ (fun _ => Vector.length_toList) _).1

/-- The `b`-th block of the ECB stage (R163). -/
theorem ecbDecrypt_block (P : Params) (key : Vector Byte 16) (ct : List Byte) (b : Nat) (hb : b < ct.length / 16) :
    ((ecbDecrypt P key ct).drop (16 * b)).take 16 =
      (P.blockDecrypt key (toBuffer 16 (slice (16 * b) (16 * b + 16) ct))).toList :=
  (flatMap_blocks _ (fun _ => Vector.length_toList) _).2 b hb

/-- The next state of a DDP.DECODE whose operands are valid (R167 to R170). -/
def ddpResult (P : Params) (keyed comp : Bool) (s : State) : State :=
  let rest := s.inp.drop s.icur
  let pt := if keyed then ecbDecrypt P s.key rest else rest
  let failed (e : BitVec 6) : State :=
    { s with
      mode := modeBits keyed comp, err := e, icur := s.inp.length, vld := s.vld &&& ~~~0x03C#9, cst := 0#2 }
  let done (plain : List Byte) : State :=
    { s with
      mode := modeBits keyed comp, err := 0#6, icur := s.inp.length, plain := plain,
      vld := (s.vld ||| 0x010#9) &&& ~~~(if keyed then 0x00C#9 else 0x008#9), cst := 0#2 }
  if keyed && rest.length % 16 != 0 then failed 0x13#6
  else if comp then
    match inflate P.inflateIncomplete pt with
    | some plain => done plain
    | none => failed 0x1C#6
  else done pt

/-! The contents of `ERR` for the errors of R281. -/

theorem errCode_decrypt : errCode .decryptionFailure .decrypt = 0x13#6 := by decide
theorem errCode_decompress : errCode .decompressionFailure .decompress = 0x1C#6 := by decide
theorem errCode_malformed : errCode .malformedRecord .start = 0x01#6 := by decide
theorem errCode_truncatedStart : errCode .truncatedStream .start = 0x02#6 := by decide
theorem errCode_truncatedAssemble : errCode .truncatedStream .assemble = 0x22#6 := by decide

/-- A DDP.DECODE whose operands are valid, whole (R167 to R170). -/
theorem ddpDecode_eq (P : Params) (keyed comp : Bool) (s : State) (hi : s.icur ≤ s.inp.length) :
    ddpDecode P keyed comp s = ddpResult P keyed comp s := by
  have hc : s.icur + s.streamAvail = s.inp.length := by simp only [State.streamAvail]; omega
  unfold ddpDecode ddpResult ddpTake ddpDecrypt ddpDecompress
  simp only [← State.streamBytes_avail]
  generalize hb : s.streamBytes s.streamAvail = rest
  cases keyed <;> cases comp <;> by_cases hm : rest.length % 16 = 0 <;>
    cases hx : inflate P.inflateIncomplete rest <;> cases hy : inflate P.inflateIncomplete (ecbDecrypt P s.key rest) <;>
    simp [hb, hm, hx, hy] <;>
    refine State.ext ?_ ?_ ?_ ?_ ?_ ?_ ?_ ?_ ?_ ?_ ?_ ?_ ?_ ?_ ?_ ?_ ?_ <;>
    first
    | (simp [State.errorEntry_eq, hc, errCode_decrypt, errCode_decompress, Status.code]; done)
    | (apply State.vld_ext; intro a; cases a <;> simp [State.errorEntry_valid] <;> simp [State.valid, Item.bit])

end Sys2Proof.Machine
end

