-- ==== Sys2Proof/Laws/Inflate.lean ====
section
/-! SUPPORT. What the bit reader and the symbol decoder do, once: each reads from the front, by a known number of bits,
whatever follows. -/

namespace Sys2Proof.Machine

@[simp] theorem byteBits_length (b : Byte) : (byteBits b).length = 8 := by simp [byteBits]

@[simp] theorem bitStream_nil : bitStream [] = [] := rfl

@[simp] theorem bitStream_append (p q : List Byte) : bitStream (p ++ q) = bitStream p ++ bitStream q :=
  List.flatMap_append

/-- The stream is a whole number of bytes (R182). -/
@[simp] theorem bitStream_length (p : List Byte) : (bitStream p).length = 8 * p.length := by
  induction p with
  | nil => rfl
  | cons b p ih => simp only [bitStream, List.flatMap_cons, List.length_append, byteBits_length] at ih ⊢; simp [ih]; omega

/-- `bits(n)` reads `n` bits (R182). -/
theorem readBits_length {n v : Nat} {r r' : Bits} (h : readBits n r = some (v, r')) : r.length = r'.length + n := by
  induction n generalizing v r r' with
  | zero => simp only [readBits, Option.some.injEq, Prod.mk.injEq] at h; simp [h.2]
  | succ n ih =>
    cases r with
    | nil => cases h
    | cons b r =>
      simp only [readBits] at h
      split at h
      · cases h
      · next heq =>
        simp only [Option.some.injEq, Prod.mk.injEq] at h
        rw [List.length_cons, ih heq, h.2]
        rfl

/-- `bits(n)` is the same whatever follows (R182). -/
theorem readBits_append {n v : Nat} {r r' : Bits} (m : Bits) (h : readBits n r = some (v, r')) :
    readBits n (r ++ m) = some (v, r' ++ m) := by
  induction n generalizing v r r' with
  | zero => simp only [readBits, Option.some.injEq, Prod.mk.injEq] at h ⊢; simp [h.1, h.2]
  | succ n ih =>
    cases r with
    | nil => cases h
    | cons b r =>
      simp only [readBits] at h
      split at h
      · cases h
      · next heq =>
        simp only [Option.some.injEq, Prod.mk.injEq] at h
        simp [readBits, ih heq, h.1, h.2]

/-- A decoded symbol has read at least one bit (R194, R340). -/
theorem decodeSymbol_length {c : HuffCode} {sym : Nat} {r r' : Bits} (h : decodeSymbol c r = some (sym, r')) :
    r'.length < r.length := by
  unfold decodeSymbol at h
  generalize 0 = code at h
  induction c generalizing code r with
  | nil => cases r <;> cases h
  | cons e c ih =>
    cases r with
    | nil => cases h
    | cons b r =>
      simp only [decodeSymbolFrom] at h
      split at h
      · split at h
        · simp only [Option.some.injEq, Prod.mk.injEq] at h
          simp [h.2]
        · exact Nat.lt_succ_of_lt (ih _ h)
      · exact Nat.lt_succ_of_lt (ih _ h)

/-- A decoded symbol is the same whatever follows (R194). -/
theorem decodeSymbol_append {c : HuffCode} {sym : Nat} {r r' : Bits} (m : Bits)
    (h : decodeSymbol c r = some (sym, r')) : decodeSymbol c (r ++ m) = some (sym, r' ++ m) := by
  unfold decodeSymbol at h ⊢
  generalize 0 = code at h ⊢
  induction c generalizing code r with
  | nil => cases r <;> cases h
  | cons e c ih =>
    obtain ⟨first, syms⟩ := e
    cases r with
    | nil => cases h
    | cons b r =>
      simp only [decodeSymbolFrom, List.cons_append] at h ⊢
      generalize (2 * code + b.toNat) = code at h ⊢
      by_cases hle : first ≤ code
      · rw [if_pos hle] at h ⊢
        cases heq : syms[code - first]? with
        | some s =>
          simp only [heq, Option.some.injEq, Prod.mk.injEq] at h ⊢
          simp [h.1, h.2]
        | none =>
          simp only [heq] at h ⊢
          exact ih _ h
      · rw [if_neg hle] at h ⊢
        exact ih _ h

/-- A match reads forward (R188). -/
theorem readMatch_length {dd : HuffCode} {sym length dist : Nat} {r r' : Bits}
    (h : readMatch dd sym r = some (length, dist, r')) : r'.length < r.length := by
  simp only [readMatch, Option.bind_eq_bind, Option.bind_eq_some_iff, Option.pure_def] at h
  obtain ⟨_, -, _, h1, _, h2, _, -, _, h3, h4⟩ := h
  have l1 := readBits_length h1
  have l2 := decodeSymbol_length h2
  have l3 := readBits_length h3
  simp only [Option.some.injEq, Prod.mk.injEq] at h4
  obtain ⟨-, -, rfl⟩ := h4
  omega

/-- A code-length symbol appends at least one length (R196). -/
theorem readLengths1_pos {cl : HuffCode} {lens more : List Nat} {r r' : Bits}
    (h : readLengths1 cl lens r = some (more, r')) : 1 ≤ more.length := by
  simp only [readLengths1, Option.bind_eq_bind, Option.bind_eq_some_iff, Option.pure_def] at h
  obtain ⟨_, -, h⟩ := h
  split at h
  · simp only [Option.some.injEq, Prod.mk.injEq] at h
    simp [← h.1]
  · split at h
    · simp only [Option.bind_eq_some_iff, Option.some.injEq, Prod.mk.injEq] at h
      obtain ⟨_, -, _, -, rfl, -⟩ := h
      simp only [List.length_replicate]
      omega
    · split at h <;> simp only [Option.bind_eq_some_iff, Option.some.injEq, Prod.mk.injEq] at h <;>
        obtain ⟨_, -, rfl, -⟩ := h <;> simp only [List.length_replicate] <;> omega

end Sys2Proof.Machine
end

