-- ==== Sys2Proof/Laws/KeyDerivation.lean ====
section
/-! SUPPORT. What one run of pad generation does, once, and that the run loop fills the pad (R133, R134). -/

namespace Sys2Proof.Machine

/-- Every run writes at least one slot and never past the end (R133, R134). -/
theorem kdRun_length (P : Params) (p : PadState) (h : p.pad.length < 256) :
    p.pad.length < (kdRun P p).pad.length ∧ (kdRun P p).pad.length ≤ 256 := by
  simp only [kdRun, List.length_append, List.length_replicate]
  omega

/-- A run is two draws (R133). -/
@[simp] theorem kdRun_prng (P : Params) (p : PadState) : (kdRun P p).prng = lprngNext P (lprngNext P p.prng) := rfl

/-- With a pass for every slot still empty, the loop of R132 ends with a full pad. -/
theorem kdRuns_length (P : Params) (n : Nat) (p : PadState) (hp : p.pad.length ≤ 256) (hn : 256 ≤ p.pad.length + n) :
    (kdRuns P n p).pad.length = 256 := by
  induction n generalizing p with
  | zero => simp only [kdRuns]; omega
  | succ n ih =>
    rw [kdRuns]
    split
    · next h =>
      have hr := kdRun_length P p h
      exact ih _ hr.2 (by omega)
    · omega

end Sys2Proof.Machine
end

