-- ==== Sys2Proof/Laws/Orchestrator.lean ====
section
/-! SUPPORT. What the section orchestrator does, once: each transition of R250, the run from each stage on, and the end of
a whole run for a plain and for a distributed section. -/

namespace Sys2Proof.Machine

/-! ### One transition -/

theorem orchStep_start {P : Params} {pt : List Byte} {s : State} (h : s.fsm = Stage.start.code) :
    orchStep P pt s = if s.dist then startDistributed P s else startPlain s := by
  simp [orchStep, h]

theorem orchStep_keyDerivation {P : Params} {pt : List Byte} {s : State} (h : s.fsm = Stage.keyDerivation.code) :
    orchStep P pt s = .ok pt ((s.keyDerivation P).setFsm .decrypt) := by
  simp [orchStep, h]

theorem orchStep_decrypt {P : Params} {pt : List Byte} {s : State} (h : s.fsm = Stage.decrypt.code) :
    orchStep P pt s =
      (ddpTake true s).andThen fun ct s => (ddpDecrypt P true ct s).andThen plaintextReady := by
  simp [orchStep, h]

theorem orchStep_decompress {P : Params} {pt : List Byte} {s : State} (h : s.fsm = Stage.decompress.code) :
    orchStep P pt s = (ddpDecompress P true pt s).andThen fun _ s => .ok pt (s.setFsm .assemble) := by
  simp [orchStep, h]

theorem orchStep_assemble {P : Params} {pt : List Byte} {s : State} (h : s.fsm = Stage.assemble.code) :
    orchStep P pt s = (rpaStage P s).andThen fun _ s => .ok pt ((s.invalidate .IN).setFsm .done) := by
  simp [orchStep, h]

theorem orchStep_done {P : Params} {pt : List Byte} {s : State} (h : s.fsm = Stage.done.code) :
    orchStep P pt s = .ok pt s := by
  simp [orchStep, h]

/-! ### The run from a stage on -/

theorem orchRun_done {P : Params} {pt : List Byte} {s : State} (n : Nat) (h : s.fsm = Stage.done.code) :
    orchRun P n pt s = .ok pt s := by
  induction n with
  | zero => rfl
  | succ n ih => simp [orchRun, orchStep_done h, ih]

theorem orchRun_assemble {P : Params} {pt : List Byte} {s : State} (n : Nat) (h : s.fsm = Stage.assemble.code) :
    orchRun P (n + 1) pt s = (rpaStage P s).andThen fun _ s => .ok pt ((s.invalidate .IN).setFsm .done) := by
  simp only [orchRun, orchStep_assemble h, rpaStage]
  split
  · exact orchRun_done _ rfl
  · rfl

theorem orchRun_decompress {P : Params} {pt : List Byte} {s : State} (n : Nat) (h : s.fsm = Stage.decompress.code) :
    orchRun P (n + 2) pt s =
      match inflate P.inflateIncomplete pt with
      | none => .err .decompressionFailure .decompress s
      | some plain =>
        (rpaStage P ((s.writePlain plain).setFsm .assemble)).andThen fun _ s =>
          .ok pt ((s.invalidate .IN).setFsm .done) := by
  rw [show n + 2 = (n + 1) + 1 from rfl, orchRun, orchStep_decompress h]
  simp only [ddpDecompress, if_true]
  cases inflate P.inflateIncomplete pt with
  | none => rfl
  | some plain => exact orchRun_assemble n rfl

/-- The run from `KeyDerivation` on: the key, then the rest of the stream, aligned and decrypted (R256, R257). -/
theorem orchRun_keyDerivation {P : Params} {pt : List Byte} {s : State} (n : Nat)
    (h : s.fsm = Stage.keyDerivation.code) :
    orchRun P (n + 4) pt s =
      if (s.inp.drop s.icur).length % 16 = 0 then
        (plaintextReady (ecbDecrypt P (deriveKey P s.ob) (s.inp.drop s.icur))
          ((((s.keyDerivation P).setFsm .decrypt).streamAdvance s.streamAvail).invalidate .KEY)).andThen
            (orchRun P (n + 2))
      else
        .err .decryptionFailure .decrypt (((s.keyDerivation P).setFsm .decrypt).streamAdvance s.streamAvail) := by
  have hb : ((s.keyDerivation P).setFsm .decrypt).streamBytes ((s.keyDerivation P).setFsm .decrypt).streamAvail =
      s.inp.drop s.icur := by
    rw [State.streamBytes_avail]; rfl
  have ha : ((s.keyDerivation P).setFsm .decrypt).streamAvail = s.streamAvail := rfl
  rw [show n + 4 = ((n + 2) + 1) + 1 from rfl, orchRun, orchStep_keyDerivation h, StageOut.andThen_ok, orchRun,
    orchStep_decrypt rfl, ddpTake, hb, ha]
  by_cases hm : (s.inp.drop s.icur).length % 16 = 0
  · simp only [hm, Bool.true_and, bne_self_eq_false, Bool.false_eq_true, if_false, StageOut.andThen_ok, ddpDecrypt,
      if_true]
    rfl
  · simp only [hm, Bool.true_and, bne_iff_ne, ne_eq, not_false_eq_true, if_true, if_false, StageOut.andThen_err]

/-- How a run ends once the plaintext is at hand in state `s` (R259, R260, R261). -/
def endResult (P : Params) (comp : Bool) (pt : List Byte) (s : State) : State :=
  match recordStreamOf P comp pt with
  | .error _ => { s with fsm := 6#3, err := 0x1C#6, vld := s.vld &&& ~~~0x03C#9, cst := 0#2 }
  | .ok plain =>
    match assemble P s.ver plain with
    | none => { s with fsm := 6#3, err := 0x22#6, plain := plain, vld := s.vld &&& ~~~0x03C#9, cst := 0#2 }
    | some out =>
      { s with fsm := 5#3, plain := plain, out := out, vld := (s.vld ||| 0x020#9) &&& ~~~0x018#9, cst := 0#2 }

/-- The end of a run whose plain record stream is at hand. -/
theorem finish_rpaStage (P : Params) (pt plain : List Byte) (s : State) :
    StageOut.finish true ((rpaStage P ((s.writePlain plain).setFsm .assemble)).andThen fun _ s =>
        .ok pt ((s.invalidate .IN).setFsm .done)) =
      match assemble P s.ver plain with
      | none => { s with fsm := 6#3, err := 0x22#6, plain := plain, vld := s.vld &&& ~~~0x03C#9, cst := 0#2 }
      | some out =>
        { s with
          fsm := 5#3, plain := plain, out := out, vld := (s.vld ||| 0x020#9) &&& ~~~0x018#9, cst := 0#2 } := by
  simp only [rpaStage, State.setFsm_ver, State.writePlain_ver, State.setFsm_plain, State.writePlain_plain]
  cases assemble P s.ver plain <;>
    simp only [StageOut.andThen_ok, StageOut.andThen_err, StageOut.finish_ok, StageOut.finish_err] <;>
    refine State.ext ?_ ?_ ?_ ?_ ?_ ?_ ?_ ?_ ?_ ?_ ?_ ?_ ?_ ?_ ?_ ?_ ?_
  case none.refine_8 =>
    apply State.vld_ext; intro a; cases a <;> simp [State.errorEntry_valid] <;> simp [State.valid, Item.bit]
  case some.refine_8 =>
    apply State.vld_ext; intro a; cases a <;> simp <;> simp [State.valid, Item.bit]
  all_goals simp [State.errorEntry_eq, Stage.code, Status.code, errCode_truncatedAssemble]

/-- The run from the plaintext on (R257, R258, R259). -/
theorem finish_plaintextReady (P : Params) (pt : List Byte) (n : Nat) (s : State) :
    StageOut.finish true ((plaintextReady pt s).andThen (orchRun P (n + 2))) = endResult P s.comp pt s := by
  unfold plaintextReady endResult recordStreamOf
  cases s.comp
  · simp only [Bool.false_eq_true, if_false, StageOut.andThen_ok]
    rw [orchRun_assemble _ rfl, finish_rpaStage]
  · simp only [if_true, StageOut.andThen_ok]
    rw [orchRun_decompress _ rfl]
    cases inflate P.inflateIncomplete pt with
    | none =>
      simp only [StageOut.finish_err]
      refine State.ext ?_ ?_ ?_ ?_ ?_ ?_ ?_ ?_ ?_ ?_ ?_ ?_ ?_ ?_ ?_ ?_ ?_
      case refine_8 =>
        apply State.vld_ext; intro a; cases a <;> simp [State.errorEntry_valid] <;> simp [State.valid, Item.bit]
      all_goals simp [State.errorEntry_eq, Stage.code, Status.code, errCode_decompress]
    | some plain =>
      simp only [finish_rpaStage, State.setFsm_ver]
      rfl

/-- Entry, whole (R251). -/
theorem secEntry_eq (dist comp : Bool) (s : State) :
    secEntry dist comp s =
      { s with mode := modeBits dist comp, fsm := 0#3, err := 0#6, vld := s.vld &&& ~~~0x030#9 } := by
  refine State.ext ?_ ?_ ?_ ?_ ?_ ?_ ?_ ?_ ?_ ?_ ?_ ?_ ?_ ?_ ?_ ?_ ?_
  case refine_8 => apply State.vld_ext; intro a; cases a <;> simp [secEntry] <;> simp [State.valid, Item.bit]
  all_goals simp [secEntry, Stage.code]

/-- A plain run, whole (R258, R263, R264). -/
theorem secRun_plain (P : Params) (comp : Bool) (s : State) :
    secRun P false comp s =
      endResult P comp (s.inp.drop s.icur) ((secEntry false comp s).streamAdvance s.streamAvail) := by
  have hd : (secEntry false comp s).dist = false := State.dist_setMode_modeBits s false comp
  have hc : (secEntry false comp s).comp = comp := State.comp_setMode_modeBits s false comp
  have hb : (secEntry false comp s).streamBytes (secEntry false comp s).streamAvail = s.inp.drop s.icur := by
    rw [State.streamBytes_avail]; rfl
  rw [secRun, show 5 = (2 + 2) + 1 from rfl, orchRun, orchStep_start rfl, hd]
  simp only [Bool.false_eq_true, if_false, startPlain]
  rw [finish_plaintextReady, hb, State.streamAdvance_comp, hc]
  rfl

/-- The state in which the ciphertext of a distributed section is at hand: the payload of the leading record in `OB`,
the key derived from it, and the rest of the stream read (R255, R256, R162). -/
def keyedState (P : Params) (comp : Bool) (ob : Vector Byte 256) (s : State) : State :=
  { s with
    regS := deriveLastS P ob, mode := modeBits true comp, err := 0#6, fsm := 2#3, icur := s.inp.length, ob := ob,
    key := deriveKey P ob, vld := (s.vld ||| 0x006#9) &&& ~~~0x031#9 }

/-- How a distributed run ends (R253 to R257, R265, R266). -/
def distResult (P : Params) (comp : Bool) (s : State) : State :=
  let rest := s.inp.drop s.icur
  let failed (e : BitVec 6) (icur : Nat) : State :=
    { s with
      mode := modeBits true comp, fsm := 6#3, err := e, icur := icur, vld := s.vld &&& ~~~0x03C#9, cst := 0#2 }
  match frameAt P rest with
  | none => failed 0x02#6 s.icur
  | some h =>
    if h.tagId = P.tagDistDocData ∧ h.size = 256 then
      if rest.length < h.hlen + 256 then failed 0x02#6 (s.icur + h.hlen)
      else
        let ob := toBuffer 256 ((rest.drop h.hlen).take 256)
        let ct := rest.drop (h.hlen + 256)
        let k := keyedState P comp ob s
        if ct.length % 16 = 0 then
          endResult P comp (ecbDecrypt P (deriveKey P ob) ct) (k.invalidate .KEY)
        else { k with fsm := 6#3, err := 0x13#6, vld := k.vld &&& ~~~0x03C#9, cst := 0#2 }
    else failed 0x01#6 (s.icur + h.hlen)

/-- An error at `Start`, whole. -/
theorem errorEntry_start (comp : Bool) (k : ErrKind) (n : Nat) (s : State) :
    ((secEntry true comp s).streamAdvance n).errorEntry true k .start =
      { s with
        mode := modeBits true comp, fsm := 6#3, err := errCode k .start, icur := s.icur + n,
        vld := s.vld &&& ~~~0x03C#9, cst := 0#2 } := by
  refine State.ext ?_ ?_ ?_ ?_ ?_ ?_ ?_ ?_ ?_ ?_ ?_ ?_ ?_ ?_ ?_ ?_ ?_
  case refine_8 =>
    apply State.vld_ext; intro a
    cases a <;> simp [State.errorEntry_valid, secEntry] <;> simp [State.valid, Item.bit]
  all_goals simp [State.errorEntry_eq, secEntry, Stage.code, Status.code]

/-- The state in which the leading record has been accepted (R255). -/
def acceptedState (comp : Bool) (h : Header) (ob : Vector Byte 256) (s : State) : State :=
  ((((secEntry true comp s).streamAdvance h.hlen).writeOB ob).streamAdvance 256).setFsm .keyDerivation

/-- The state after `StreamRest` on the ciphertext, whole. -/
theorem keyedState_eq (P : Params) (comp : Bool) (h : Header) (ob : Vector Byte 256) (s : State)
    (hl : h.hlen + 256 ≤ s.inp.length - s.icur) (hi : s.icur ≤ s.inp.length) :
    (((acceptedState comp h ob s).keyDerivation P).setFsm .decrypt).streamAdvance
        (acceptedState comp h ob s).streamAvail = keyedState P comp ob s := by
  refine State.ext ?_ ?_ ?_ ?_ ?_ ?_ ?_ ?_ ?_ ?_ ?_ ?_ ?_ ?_ ?_ ?_ ?_
  case refine_8 =>
    apply State.vld_ext; intro a
    cases a <;> simp [acceptedState, State.keyDerivation, secEntry, keyedState] <;> simp [State.valid, Item.bit]
  case refine_9 =>
    simp only [acceptedState, State.streamAdvance_icur, State.setFsm_icur, State.keyDerivation, State.invalidate_icur,
      State.writeKey_icur, State.writeS_icur, State.writeOB_icur, State.streamAvail, State.setFsm_inp,
      State.streamAdvance_inp, State.writeOB_inp, keyedState, secEntry_eq]
    omega
  all_goals simp [acceptedState, State.keyDerivation, secEntry, keyedState, Stage.code]

/-- The end of a distributed run whose leading record is accepted. -/
theorem finish_accepted (P : Params) (comp : Bool) (h : Header) (ob : Vector Byte 256) (s : State)
    (hl : h.hlen + 256 ≤ s.inp.length - s.icur) (hi : s.icur ≤ s.inp.length) :
    StageOut.finish true (orchRun P 4 [] (acceptedState comp h ob s)) =
      if ((s.inp.drop s.icur).drop (h.hlen + 256)).length % 16 = 0 then
        endResult P comp (ecbDecrypt P (deriveKey P ob) ((s.inp.drop s.icur).drop (h.hlen + 256)))
          ((keyedState P comp ob s).invalidate .KEY)
      else
        { keyedState P comp ob s with
          fsm := 6#3, err := 0x13#6, vld := (keyedState P comp ob s).vld &&& ~~~0x03C#9, cst := 0#2 } := by
  have hd : (acceptedState comp h ob s).inp.drop (acceptedState comp h ob s).icur =
      (s.inp.drop s.icur).drop (h.hlen + 256) := by
    simp [acceptedState, secEntry_eq, List.drop_drop, Nat.add_assoc]
  have hob : (acceptedState comp h ob s).ob = ob := by simp [acceptedState]
  have hk : ((keyedState P comp ob s).invalidate .KEY).comp = comp := by
    cases comp <;> simp [keyedState, State.comp, modeBits]
  rw [orchRun_keyDerivation 0 (by simp [acceptedState]), hd, hob, keyedState_eq P comp h ob s hl hi]
  split
  · rw [finish_plaintextReady, hk]
  · rw [StageOut.finish_err]
    refine State.ext ?_ ?_ ?_ ?_ ?_ ?_ ?_ ?_ ?_ ?_ ?_ ?_ ?_ ?_ ?_ ?_ ?_
    case refine_8 =>
      apply State.vld_ext; intro a
      cases a <;> simp [State.errorEntry_valid] <;> simp [State.valid, Item.bit]
    all_goals simp [State.errorEntry_eq, keyedState, Stage.code, Status.code, errCode_decrypt]

/-- A distributed run, whole. -/
theorem secRun_dist (P : Params) (comp : Bool) (s : State) (hi : s.icur ≤ s.inp.length) :
    secRun P true comp s = distResult P comp s := by
  have hd : (secEntry true comp s).dist = true := State.dist_setMode_modeBits s true comp
  have he : (secEntry true comp s).inp.drop (secEntry true comp s).icur = s.inp.drop s.icur := by simp [secEntry_eq]
  rw [secRun, show 5 = 4 + 1 from rfl, orchRun, orchStep_start (by simp [secEntry]), hd, if_pos rfl, startDistributed,
    he, distResult]
  cases hf : frameAt P (s.inp.drop s.icur) with
  | none =>
    have h := errorEntry_start comp .truncatedStream 0 s
    rw [errCode_truncatedStart] at h
    exact h
  | some h =>
    have hle := frameAt_hlen_le hf
    have ha : ((secEntry true comp s).streamAdvance h.hlen).streamAvail = s.inp.length - s.icur - h.hlen := by
      simp only [State.streamAvail, State.streamAdvance_icur, State.streamAdvance_inp, secEntry_eq]
      omega
    have hb : ((secEntry true comp s).streamAdvance h.hlen).streamBytes 256 =
        ((s.inp.drop s.icur).drop h.hlen).take 256 := by
      simp [State.streamBytes, slice, secEntry_eq, List.drop_drop]
    simp only [startValidate, ite_not, startPayload, ha, hb]
    by_cases h1 : h.tagId = P.tagDistDocData
    · by_cases h2 : h.size = 256
      · rw [if_pos h1, if_pos h2, if_pos (And.intro h1 h2)]
        simp only [List.length_drop] at hle ⊢
        by_cases h3 : s.inp.length - s.icur < h.hlen + 256
        · have h4 : s.inp.length - s.icur - h.hlen < 256 := by omega
          rw [if_pos h4, if_pos h3, StageOut.andThen_err, StageOut.finish_err, errorEntry_start,
            errCode_truncatedStart]
        · have h4 : ¬s.inp.length - s.icur - h.hlen < 256 := by omega
          rw [if_neg h4, if_neg h3, StageOut.andThen_ok]
          have h := finish_accepted P comp h (toBuffer 256 (((s.inp.drop s.icur).drop h.hlen).take 256)) s (by omega) hi
          simpa only [acceptedState, List.length_drop] using h
      · rw [if_pos h1, if_neg h2, if_neg (mt And.right h2), StageOut.andThen_err, StageOut.finish_err,
          errorEntry_start, errCode_malformed]
    · rw [if_neg h1, if_neg (mt And.left h1), StageOut.andThen_err, StageOut.finish_err, errorEntry_start,
        errCode_malformed]

/-- A SEC.RUN whose operands are valid is its run. -/
theorem commandWith_secInstr (P : Params) (dist comp : Bool) (s : State) (hi : s.valid .IN = true)
    (hv : s.valid .VER = true) : commandWith P (secInstr dist comp) s = secRun P dist comp s := by
  cases dist <;> cases comp <;>
    simp only [secInstr, commandWith, secRunPU, secRunPC, secRunDU, secRunDC] <;>
    rw [State.require_of_valid _ _ _ (by simp [State.operandsValid, requiredItems, hi, hv])]

/-- A DDP.DECODE whose operands are valid is its decode. -/
theorem commandWith_ddpInstr (P : Params) (keyed comp : Bool) (s : State) (hi : s.valid .IN = true)
    (hk : keyed = true → s.valid .KEY = true) :
    commandWith P (ddpInstr keyed comp) s = ddpDecode P keyed comp s := by
  cases keyed <;> cases comp <;>
    simp only [ddpInstr, commandWith, ddpDecodePU, ddpDecodePC, ddpDecodeKU, ddpDecodeKC] <;>
    rw [State.require_of_valid _ _ _ (by simp [State.operandsValid, requiredItems, hi] <;> exact hk rfl)]

end Sys2Proof.Machine
end

