-- ==== Sys2Proof/Laws/PerInstr.lean ====
section
/-! SUPPORT. One lemma per command about its syntax: the fields of its byte stand in R80's table, its byte's high nibble
names its unit and bits 3:2 are 0, and the table gives the command back for its `(UNIT, F1, F0)` (R80, R81). -/

namespace Sys2Proof.Laws.CommandByte

open Sys2Proof

/-- A command's fields are well formed, its byte splits back into them, and R80's table names it by them. -/
def Statement (i : Instr) : Prop :=
  i.WellFormed = true ∧ cmdFields (encode i) = i.fields ∧ (encode i).extractLsb' 2 2 = 0#2 ∧
    lookupCommand i.fields.unit i.fields.f1 i.fields.f0 = some i

theorem lprngNew : Statement .lprngNew := by unfold Statement; decide
theorem lprngDraw : Statement .lprngDraw := by unfold Statement; decide
theorem kdDerive : Statement .kdDerive := by unfold Statement; decide
theorem ddpDecodePU : Statement .ddpDecodePU := by unfold Statement; decide
theorem ddpDecodePC : Statement .ddpDecodePC := by unfold Statement; decide
theorem ddpDecodeKU : Statement .ddpDecodeKU := by unfold Statement; decide
theorem ddpDecodeKC : Statement .ddpDecodeKC := by unfold Statement; decide
theorem rpaAssemble : Statement .rpaAssemble := by unfold Statement; decide
theorem secRunPU : Statement .secRunPU := by unfold Statement; decide
theorem secRunPC : Statement .secRunPC := by unfold Statement; decide
theorem secRunDU : Statement .secRunDU := by unfold Statement; decide
theorem secRunDC : Statement .secRunDC := by unfold Statement; decide

end Sys2Proof.Laws.CommandByte
end

