-- ==== Sys2Proof/Tests/Slice0.lean ====
section
/-! SUPPORT. Tests. Expected values are the spec's: the encodings of R80, and the worked vectors of
spec/95_test_vectors.md, named in each comment. The vectors assume values of the open parameters: the candidate LPRNG
parameters, the candidate `FRAME` of R232, the tag 0x1C and the XOR stand-in for the cipher. At the end, for every
statement with hypotheses, a witness that meets them. -/

namespace Sys2Proof.Tests

set_option Elab.async false

open Sys2Proof Sys2Proof.Machine

/-! ### Decoding: each command byte written from R80's table -/

theorem test_decode_lprng : decode (0b0001_00_0_0#8) = .ok .lprngNew ∧ decode (0b0001_00_0_1#8) = .ok .lprngDraw := by
  decide

theorem test_decode_kdu : decode (0b0010_00_0_0#8) = .ok .kdDerive := by decide

theorem test_decode_ddp :
    decode (0b0011_00_0_0#8) = .ok .ddpDecodePU ∧ decode (0b0011_00_0_1#8) = .ok .ddpDecodePC ∧
    decode (0b0011_00_1_0#8) = .ok .ddpDecodeKU ∧ decode (0b0011_00_1_1#8) = .ok .ddpDecodeKC := by decide

theorem test_decode_rpa : decode (0b0100_00_0_0#8) = .ok .rpaAssemble := by decide

theorem test_decode_orch :
    decode (0b0101_00_0_0#8) = .ok .secRunPU ∧ decode (0b0101_00_0_1#8) = .ok .secRunPC ∧
    decode (0b0101_00_1_0#8) = .ok .secRunDU ∧ decode (0b0101_00_1_1#8) = .ok .secRunDC := by decide

/-- The reserved bytes of SEC-R3, each refused by name (R90). -/
theorem test_decode_reserved :
    decode 0x54#8 = .error .zNotZero ∧ decode 0x00#8 = .error .unitReserved ∧ decode 0x12#8 = .error .flagsReserved ∧
    decode 0x21#8 = .error .flagsReserved ∧ decode 0x34#8 = .error .zNotZero ∧ decode 0x44#8 = .error .zNotZero ∧
    decode 0x58#8 = .error .zNotZero ∧ decode 0xFF#8 = .error .zNotZero := by decide

theorem test_decode_table_word :
    decodeTableWord 8 0x53 = some .secRunDC ∧ decodeTableWord 8 0x11 = some .lprngDraw ∧
    decodeTableWord 8 0x60 = none := by decide

/-! ### WellFormed: an ill-formed term for each check -/

theorem test_wf_z : (CmdFields.mk 1#4 1#2 false false).wf = false := by decide
theorem test_wf_unit_zero : (CmdFields.mk 0#4 0#2 false false).wf = false := by decide
theorem test_wf_unit_six : (CmdFields.mk 6#4 0#2 false false).wf = false := by decide
theorem test_wf_lprng_f1 : (CmdFields.mk 1#4 0#2 true false).wf = false := by decide
theorem test_wf_kdu_f0 : (CmdFields.mk 2#4 0#2 false true).wf = false := by decide
theorem test_wf_rpa_f1 : (CmdFields.mk 4#4 0#2 true false).wf = false := by decide

/-! ### Candidate parameters and data of spec/95 -/

/-- The candidate `FRAME` of R232. -/
def candidateFrame (b : List Byte) : Option Header :=
  match b with
  | b0 :: b1 :: b2 :: b3 :: r =>
    let h := le32 b0 b1 b2 b3
    let tag := h &&& 0x3FF
    let level := ((h >>> 10) &&& 0x3FF).setWidth 16
    if h >>> 20 ≠ 0xFFF#32 then some ⟨tag, level, h >>> 20, 4, by decide⟩
    else
      match r with
      | c0 :: c1 :: c2 :: c3 :: _ => some ⟨tag, level, le32 c0 c1 c2 c3, 8, by decide⟩
      | _ => none
  | _ => none

/-- The candidate parameters, with the XOR stand-in and a paragraph that writes out its record and version. -/
def candidate : Params where
  lprngA := 214013
  lprngC := 2531011
  lprngSh := 16
  lprngMask := 0x7FFF
  tagDistDocData := 0x1C
  frame := candidateFrame
  blockDecrypt k b := Vector.zipWith (· ^^^ ·) k b
  paraDecode r v := ⟨[r.tagId.toNat, r.level.toNat, r.size.toNat] ++ r.payload.map BitVec.toNat ++ [v.token]⟩
  inflateIncomplete := .fail

def bs (l : List Nat) : List Byte := l.map (BitVec.ofNat 8)

/-- `K`, the key of KD-4. -/
def keyK : Vector Byte 16 := Vector.ofFn fun i => BitVec.ofNat 8 i.val

/-- `REC32` and `Z34` of section 7 and INF-7. -/
def rec32 : List Byte := bs
  [0x42, 0x00, 0x50, 0x00, 0x48, 0x65, 0x6c, 0x6c, 0x6f, 0x43, 0x04, 0x70, 0x00, 0x57, 0x6f, 0x72,
   0x6c, 0x64, 0x21, 0x21, 0x44, 0x04, 0x80, 0x00, 0xde, 0xad, 0xbe, 0xef, 0x01, 0x02, 0x03, 0x04]

def z34 : List Byte := bs
  [0x73, 0x62, 0x08, 0x60, 0xf0, 0x48, 0xcd, 0xc9, 0xc9, 0x77, 0x66, 0x29, 0x60, 0x08, 0xcf, 0x2f, 0xca,
   0x49, 0x51, 0x54, 0x74, 0x61, 0x69, 0x60, 0xb8, 0xb7, 0x76, 0xdf, 0x7b, 0x46, 0x26, 0x66, 0x16, 0x00]

/-- The first 33 bytes of the block of KD-4; R142: no later byte reaches the key, so the rest is zero here (KD-6c). -/
def blockKD4 : List Byte := bs
  [0x0d, 0xf0, 0xfe, 0xca, 0x0b, 0x32, 0x39, 0x20, 0x2f, 0x56, 0x5d, 0x44, 0x43, 0x4a, 0x71, 0x78,
   0x0e, 0x7d, 0x7c, 0x7f, 0x7e, 0x79, 0x78, 0x24, 0x25, 0x2a, 0x2b, 0x28, 0x29, 0x2e, 0x02, 0x01, 0x00] ++
  List.replicate 223 0

/-- `LEAD` of section 7. -/
def lead : List Byte := bs [0x1c, 0x00, 0x00, 0x10] ++ blockKD4

/-- The ciphertexts of DDP-3 and DDP-4 under the XOR stand-in. -/
def ddp3 : List Byte := bs
  [0x42, 0x01, 0x52, 0x03, 0x4c, 0x60, 0x6a, 0x6b, 0x67, 0x4a, 0x0e, 0x7b, 0x0c, 0x5a, 0x61, 0x7d,
   0x6c, 0x65, 0x23, 0x22, 0x40, 0x01, 0x86, 0x07, 0xd6, 0xa4, 0xb4, 0xe4, 0x0d, 0x0f, 0x0d, 0x0b]

def ddp4 : List Byte := bs
  [0x73, 0x63, 0x0a, 0x63, 0xf4, 0x4d, 0xcb, 0xce, 0xc1, 0x7e, 0x6c, 0x22, 0x6c, 0x05, 0xc1, 0x20,
   0xca, 0x48, 0x53, 0x57, 0x70, 0x64, 0x6f, 0x67, 0xb0, 0xbe, 0x7c, 0xd4, 0x77, 0x4b, 0x28, 0x69,
   0x16, 0x01, 0x02, 0x03, 0x04, 0x05, 0x06, 0x07, 0x08, 0x09, 0x0a, 0x0b, 0x0c, 0x0d, 0x0e, 0x0f]

/-- `SECTION3` of section 7, with the version token 7. -/
def section3 : List Paragraph :=
  [⟨[0x42, 0, 5, 0x48, 0x65, 0x6c, 0x6c, 0x6f, 7]⟩, ⟨[0x43, 1, 7, 0x57, 0x6f, 0x72, 0x6c, 0x64, 0x21, 0x21, 7]⟩,
   ⟨[0x44, 1, 8, 0xde, 0xad, 0xbe, 0xef, 1, 2, 3, 4, 7]⟩]

/-- The header of `LEAD` under the candidate `FRAME`. -/
def leadHeader : Header := ⟨0x1C, 0, 256, 4, by decide⟩

/-! Small states: reset, then the host's loads. -/

def ready (inp : List Byte) : State := (State.reset.writeVer ⟨7⟩).writeIn inp
def readyKey (inp : List Byte) : State := (ready inp).writeKey keyK
def readyPlain (plain : List Byte) : State := (State.reset.writeVer ⟨7⟩).writePlain plain
def readyBlock (ob : List Byte) : State := State.reset.writeOB (toBuffer 256 ob)

/-! ### One step of each command -/

/-- LP-10c, LP-10d: the state is the seed itself; `RESV` stays clear. -/
theorem test_lprngNew :
    let t := lprngNew (State.reset.writeArg 9)
    t.regS = 9 ∧ t.vld = 0x101 ∧ t.cst = 0 := by decide

/-- LP-10b. -/
theorem test_lprngNew_refused : lprngNew State.reset = { State.reset with cst := 2 } := by rfl

/-- LP-3, draw 1: the product and the sum wrap. -/
theorem test_lprngDraw :
    let t := lprngDraw candidate (State.reset.writeS 0xFFFFFFFF)
    t.regS = 0x00235AC6 ∧ t.regRes = 35 ∧ t.vld = 0x081 := by decide

/-- LP-7, draw 1: the mask drops bit 15. -/
theorem test_lprngDraw_mask : (lprngDraw candidate (State.reset.writeS 0x80000000)).regRes = 0x0026 := by decide

/-- KD-3: the largest offset. -/
theorem test_kdDerive :
    (kdDerive candidate (readyBlock (bs [0x0f, 0, 0, 0] ++ List.replicate 252 0xff))).key.toList =
      bs [0x0a, 0x0a, 0x0a, 0x0a, 0x0a, 0xf3, 0xf3, 0xf3, 0xf3, 0xf3, 0xf3, 0xf3, 0xf3, 0xf3, 0xb3, 0xb3] := by
  decide +kernel

/-- KD-1, PAD-1: the validity bits, and `S` after the last draw. -/
theorem test_kdDerive_state :
    let t := kdDerive candidate (readyBlock [])
    t.vld = 0x006 ∧ t.regS = 0x844E8240 ∧ t.cst = 0 := by decide +kernel

/-- DDP-1. -/
theorem test_ddpDecodePU :
    let t := ddpDecodePU candidate (ready (bs [0x42, 0x00, 0x30, 0x00, 0x01, 0x02, 0x03]))
    t.plain = bs [0x42, 0x00, 0x30, 0x00, 0x01, 0x02, 0x03] ∧ t.mode = 0 ∧ t.vld = 0x050 ∧ t.icur = 7 := by decide

/-- DDP-2. -/
theorem test_ddpDecodePC :
    let t := ddpDecodePC candidate (ready (bs [0x4b, 0x04, 0x00]))
    t.plain = bs [0x61] ∧ t.mode = 1 ∧ t.vld = 0x050 := by decide +kernel

/-- DDP-3. -/
theorem test_ddpDecodeKU :
    let t := ddpDecodeKU candidate (readyKey ddp3)
    t.plain = rec32 ∧ t.mode = 2 ∧ t.vld = 0x050 := by decide +kernel

/-- DDP-5: 31 bytes. -/
theorem test_ddpDecodeKU_misaligned :
    let t := ddpDecodeKU candidate (readyKey (ddp3.take 31))
    t.err = 0x13 ∧ t.vld = 0x040 ∧ t.fsm = 0 ∧ t.cst = 0 := by decide +kernel

/-- DDP-4. -/
theorem test_ddpDecodeKC :
    let t := ddpDecodeKC candidate (readyKey ddp4)
    t.plain = rec32 ∧ t.mode = 3 ∧ t.vld = 0x050 := by decide +kernel

/-- DDP-12: alignment is checked before decompression. -/
theorem test_ddpDecodeKC_misaligned :
    (ddpDecodeKC candidate (readyKey (List.replicate 15 0xff))).err = 0x13 := by decide +kernel

/-- FR-6. -/
theorem test_rpaAssemble :
    let t := rpaAssemble candidate
      (readyPlain (bs [0x42, 0x00, 0x30, 0x00, 0x01, 0x02, 0x03, 0x43, 0x04, 0x20, 0x00, 0xaa, 0xbb]))
    t.out = [⟨[0x42, 0, 3, 1, 2, 3, 7]⟩, ⟨[0x43, 1, 2, 0xaa, 0xbb, 7]⟩] ∧ t.vld = 0x060 := by decide +kernel

/-- FR-F5: the comparison is on naturals and does not wrap. -/
theorem test_rpaAssemble_huge_size :
    let t := rpaAssemble candidate (readyPlain (bs [0x42, 0x00, 0xf0, 0xff, 0xff, 0xff, 0xff, 0xff]))
    t.err = 0x22 ∧ t.vld = 0x040 := by decide +kernel

/-- SEC-1. -/
theorem test_secRunPU :
    let t := secRunPU candidate (ready rec32)
    t.out = section3 ∧ t.fsm = 5 ∧ t.mode = 0 ∧ t.vld = 0x060 := by decide +kernel

/-- SEC-F11: the third record is cut, and nothing is delivered. -/
theorem test_secRunPU_cut :
    let t := secRunPU candidate (ready (rec32.take 31))
    t.err = 0x22 ∧ t.fsm = 6 ∧ t.vld = 0x040 := by decide +kernel

/-- SEC-2. -/
theorem test_secRunPC :
    let t := secRunPC candidate (ready z34)
    t.out = section3 ∧ t.fsm = 5 ∧ t.mode = 1 ∧ t.vld = 0x060 := by decide +kernel

/-- SEC-F9. -/
theorem test_secRunPC_empty : (secRunPC candidate (ready [])).err = 0x1C := by decide +kernel

/-- SEC-3. -/
theorem test_secRunDU :
    let t := secRunDU candidate (ready (lead ++ ddp3))
    t.out = section3 ∧ t.vld = 0x062 ∧ t.fsm = 5 ∧ t.mode = 2 ∧ t.err = 0 := by decide +kernel

/-- SEC-F7: the block was loaded and key derivation ran before the alignment check. -/
theorem test_secRunDU_misaligned :
    let t := secRunDU candidate (ready (lead ++ ddp3.take 31))
    t.err = 0x13 ∧ t.vld = 0x042 ∧ t.fsm = 6 := by decide +kernel

/-- SEC-4, program P4. -/
theorem test_secRunDC :
    let t := secRunDC candidate (ready (lead ++ ddp4))
    t.out = section3 ∧ t.vld = 0x062 ∧ t.fsm = 5 ∧ t.mode = 3 := by decide +kernel

/-- SEC-F3: wrongly sized and cut short: `MalformedRecord` wins. -/
theorem test_secRunDC_malformed :
    let t := secRunDC candidate (ready (bs [0x1c, 0x00, 0x10, 0x10]))
    t.err = 0x01 ∧ t.vld = 0x040 ∧ t.fsm = 6 := by decide +kernel

/-- R91, R296: the machine takes the word placed for it; right after reset the command is refused for want of data. -/
theorem test_step_fetch : step (State.reset.withFetchWord 8 0x53) = .next { State.reset with cst := 2 } := by rfl

/-- LP-10a, SEC-R3 through the step. -/
theorem test_step_draw : step (State.reset.withFetchWord 8 0x11) = .next { State.reset with cst := 2 } := by rfl
theorem test_step_reserved : step (State.reset.withFetchWord 8 0x54) = .next { State.reset with cst := 1 } := by rfl

/-- P1, steps 2 and 3, through the step. -/
theorem test_step_host_write :
    step { State.reset with hostq := [.writeARG 1] } = .next { State.reset with regArg := 1, vld := 0x100 } := by rfl

/-- P2, step 7: a read of an invalid item returns nothing. -/
theorem test_step_host_read_invalid :
    step { State.reset with hostq := [.readReg .S] } = .next State.reset := by rfl

/-! ### Inflate -/

theorem test_inf1_stored :
    inflate .fail (bs [0x01, 0x05, 0x00, 0xfa, 0xff, 0x68, 0x65, 0x6c, 0x6c, 0x6f]) =
      some (bs [0x68, 0x65, 0x6c, 0x6c, 0x6f]) := by decide +kernel

theorem test_inf5_overlap :
    inflate .fail (bs [0x4b, 0x4c, 0x4a, 0x4e, 0x84, 0x21, 0x00]) =
      some (bs [0x61, 0x62, 0x63, 0x61, 0x62, 0x63, 0x61, 0x62, 0x63, 0x61, 0x62, 0x63]) := by decide +kernel

theorem test_inf6_trailing : inflate .fail (bs [0x4b, 0x04, 0x00, 0xde, 0xad]) = some (bs [0x61]) := by decide +kernel

/-- INF-8: a dynamic block with codes of its own, repeats and matches. -/
theorem test_inf8_dynamic :
    inflate .fail (bs
      [0x1d, 0x89, 0x81, 0x09, 0x00, 0x00, 0x08, 0xc2, 0x6e, 0xdd, 0xec, 0xff, 0x1b, 0xb2, 0x04, 0xc7,
       0x44, 0x40, 0xf4, 0x38, 0xd0, 0x9a, 0x6a, 0x93, 0x43, 0x2f, 0x92, 0xdf, 0x3e, 0x59]) =
      some ("aaababbaabadaaadabcabaaaacaaaababaccbaaaabbaaaaa".toList.map fun c => BitVec.ofNat 8 c.toNat) := by
  decide +kernel

theorem test_inf10_two_blocks :
    inflate .fail (bs [0x00, 0x01, 0x00, 0xfe, 0xff, 0x61, 0x03, 0x00]) = some (bs [0x61]) := by decide +kernel

theorem test_infF3_nlen :
    inflate .fail (bs [0x01, 0x05, 0x00, 0xfa, 0xef, 0x68, 0x65, 0x6c, 0x6c, 0x6f]) = none := by decide +kernel

theorem test_infF5_distance : inflate .fail (bs [0x4b, 0x04, 0x42, 0x00]) = none := by decide +kernel

theorem test_infF8_either_policy :
    inflate .fail (bs ([0x05] ++ List.replicate 20 0xff)) = none ∧
    inflate .allow (bs ([0x05] ++ List.replicate 20 0xff)) = none := by decide +kernel

/-- INF-O1: the open case, under both settings. -/
theorem test_infO1_open :
    inflate .fail (bs [0x05, 0xc0, 0x01, 0x09, 0x00, 0x00, 0x00, 0x80, 0xa0, 0xad, 0xfe, 0x3f, 0x11, 0x02]) = none ∧
    inflate .allow (bs [0x05, 0xc0, 0x01, 0x09, 0x00, 0x00, 0x00, 0x80, 0xa0, 0xad, 0xfe, 0x3f, 0x11, 0x02]) =
      some (bs [0x61]) := by decide +kernel

/-! ### Witnesses: for each statement with hypotheses, a state and operands that meet them -/

theorem test_witness_ReservedByteRefused :
    0x21#8 ∉ [0x10#8, 0x11#8, 0x20#8, 0x30#8, 0x31#8, 0x32#8, 0x33#8, 0x40#8, 0x50#8, 0x51#8, 0x52#8, 0x53#8] := by
  decide

theorem test_witness_StepRunsIssuedCommand :
    decode 0x50#8 = .ok .secRunPU ∧ (State.reset.withFetchWord 8 0x50).hostq = [.issue 0x50#8] := by decide

theorem test_witness_IdleStepChangesNothing : State.reset.hostq = [] := by decide

/-- Each host operation may be the next: `HostResetClears`, `HostLoadsWriteTheirItem`, `HostReadsAnswerValidItems`. -/
theorem test_witness_HostOperations (op : HostOp) : (pushHostOp op State.reset).hostq = [op] := rfl

theorem test_witness_SeedingLoadsArgument :
    (State.reset.writeArg 5).valid .ARG = true ∧ State.reset.valid .ARG = false := by decide

theorem test_witness_NthDrawDependsOnSeedAlone : (State.reset.writeArg 0xFFFFFFFF).valid .ARG = true := by decide

theorem test_witness_DrawAdvancesAndLandsResult :
    (State.reset.writeS 0xFFFFFFFF).valid .S = true ∧ State.reset.valid .S = false := by decide

theorem test_witness_DrawsAreBelow65536 : (State.reset.writeS 0x80000000).valid .S = true := by decide

/-- Also for `DerivationLosesPrngState` and `SecondDerivationGivesSameKey`. -/
theorem test_witness_DerivedKeyIsBlockXorPad : (readyBlock blockKD4).valid .OB = true := by decide +kernel

/-- The first and the last slot of the pad. -/
theorem test_witness_PadSlotHoldsFillOfItsRun :
    0 < 256 ∧ 255 < 256 ∧ 1 ≤ 32 ∧ startOf candidate 0 32 ≤ 255 ∧
      255 < startOf candidate 0 32 + timesOf candidate 0 32 := by decide +kernel

/-- KD-6c: two blocks that agree up to index 33 and differ after. -/
theorem test_witness_KeyDependsOnTwentyBlockBytes :
    let s := readyBlock blockKD4
    let s' := readyBlock (blockKD4.take 33 ++ List.replicate 223 0xff)
    s.valid .OB = true ∧ s'.valid .OB = true ∧ s.ob ≠ s'.ob ∧
    (∀ i < 4, s.ob.toList.getD i 0 = s'.ob.toList.getD i 0) ∧
    (∀ i < 16, s.ob.toList.getD (kdOffset (kdSeed s.ob) + i) 0 = s'.ob.toList.getD (kdOffset (kdSeed s.ob) + i) 0) := by
  decide +kernel

/-- The two masks of C1. -/
theorem test_witness_MaskAboveBit7NeverReachesKey :
    (∀ j < 8, (0x7FFF#16).getLsbD j = true) ∧ (∀ j < 8, (0xFFFF#16).getLsbD j = true) := by decide

theorem test_witness_ObfuscatedKeyIsRecovered :
    let ob := obfuscate Config.params 0xCAFEF00D (Vector.replicate 256 7)
    (State.reset.writeOB ob).valid .OB = true ∧ (State.reset.writeOB ob).ob = ob := by
  simp

/-- A cursor inside the stream, and one at its end. -/
theorem test_witness_PlainDecodeCopiesRemainder :
    (ready rec32).valid .IN = true ∧ (ready rec32).icur ≤ (ready rec32).inp.length ∧
    ((ready rec32).streamAdvance 32).icur ≤ ((ready rec32).streamAdvance 32).inp.length := by decide

/-- INF-3: `03 00` is valid under either policy. -/
theorem test_witness_PlainDecodeInflates (pol : IncompletePolicy) :
    inflate pol ((ready (bs [0x03, 0x00])).inp.drop (ready (bs [0x03, 0x00])).icur) = some [] ∧
    (ready (bs [0x03, 0x00])).valid .IN = true ∧
    (ready (bs [0x03, 0x00])).icur ≤ (ready (bs [0x03, 0x00])).inp.length := by
  cases pol <;> decide +kernel

/-- INF-F2: `07` is invalid under either policy. -/
theorem test_witness_PlainDecodeInflates_invalid (pol : IncompletePolicy) :
    inflate pol ((ready (bs [0x07])).inp.drop (ready (bs [0x07])).icur) = none ∧
    (ready (bs [0x07])).valid .IN = true ∧ (ready (bs [0x07])).icur ≤ (ready (bs [0x07])).inp.length := by
  cases pol <;> decide +kernel

/-- Two blocks, so that a block number 1 exists. -/
theorem test_witness_KeyedDecodeDecryptsBlocks :
    let s := readyKey ddp3
    s.valid .IN = true ∧ s.valid .KEY = true ∧ s.icur ≤ s.inp.length ∧ (s.inp.length - s.icur) % 16 = 0 ∧
    1 < (s.inp.length - s.icur) / 16 := by decide

/-- Also for the misaligned clause of `KeyedDecodeInflatesPlaintext`. -/
theorem test_witness_KeyedDecodeDecryptsBlocks_misaligned :
    let s := readyKey (ddp3.take 31)
    s.valid .IN = true ∧ s.valid .KEY = true ∧ s.icur ≤ s.inp.length ∧ (s.inp.length - s.icur) % 16 ≠ 0 := by decide

theorem test_witness_KeyedDecodeInflatesPlaintext :
    let s := readyKey ddp4
    s.valid .IN = true ∧ s.valid .KEY = true ∧ s.icur ≤ s.inp.length ∧ (s.inp.length - s.icur) % 16 = 0 ∧
    inflate candidate.inflateIncomplete (ecbDecrypt candidate s.key (s.inp.drop s.icur)) = some rec32 := by
  decide +kernel

/-- DDP-7: whole blocks, none, are no deflate stream. -/
theorem test_witness_KeyedDecodeInflatesPlaintext_invalid :
    let s := readyKey []
    s.valid .IN = true ∧ s.valid .KEY = true ∧ s.icur ≤ s.inp.length ∧ (s.inp.length - s.icur) % 16 = 0 ∧
    inflate candidate.inflateIncomplete (ecbDecrypt candidate s.key (s.inp.drop s.icur)) = none := by decide +kernel

/-- The refusal clauses: `IN` never loaded, and with `IN` loaded `KEY` never, `VER` never; `PLAIN` never. -/
theorem test_witness_refusal_clauses :
    State.reset.valid .IN = false ∧ (ready ddp3).valid .KEY = false ∧ (State.reset.writeIn rec32).valid .VER = false ∧
    State.reset.valid .PLAIN = false := by decide

theorem test_witness_EcbHasNoChaining : ddp3.length % 16 = 0 ∧ ddp4.length % 16 = 0 := by decide

theorem test_witness_KeyIsSingleUse (comp : Bool) : (readyKey ddp3).operandsValid (ddpInstr true comp) = true := by
  cases comp <;> decide

theorem test_witness_StreamIsConsumed :
    readsStream .secRunDC = true ∧ (ready rec32).operandsValid .secRunDC = true ∧
    readsStream .ddpDecodeKU = true ∧ (readyKey rec32).operandsValid .ddpDecodeKU = true := by decide

theorem test_witness_EmptyAndReservedBlockInvalid : (0x07#8).getLsbD 1 = true ∧ (0x07#8).getLsbD 2 = true := by decide

theorem test_witness_StoredBlockGivesItsBytes : (List.replicate 65535 (0 : Byte)).length < 2 ^ 16 := by
  rw [List.length_replicate]; decide

/-- Also for `LenientExtendsStrict`. -/
theorem test_witness_TrailingBytesAreIgnored : inflate .fail (bs [0x4b, 0x04, 0x00]) = some (bs [0x61]) := by
  decide +kernel

/-- The bits of INF-3, and the 258 lengths of the smallest dynamic block. -/
theorem test_witness_InflateFuelSuffices : (bitStream (bs [0x03, 0x00])).length ≤ 17 ∧ 258 ≤ 320 := by decide

/-- Distance 1 and the whole history. -/
theorem test_witness_MatchCopyRepeatsHistory : 1 ≤ 1 ∧ 1 ≤ rec32.length ∧ 1 ≤ 32 ∧ 32 ≤ rec32.length := by decide

/-- The literal/length code of INF-O1 and the complete code of R193's kind in INF-8. -/
theorem test_witness_CanonicalCodewordsDecode :
    (∀ l ∈ [2, 1, 3, 3], l ≤ 15) ∧ kraftSum [2, 1, 3, 3] ≤ 2 ^ 15 ∧ [2, 1, 3, 3].getD 3 0 ≠ 0 ∧
    (∀ l ∈ [1, 0, 2], l ≤ 15) ∧ kraftSum [1, 0, 2] ≤ 2 ^ 15 ∧ [1, 0, 2].getD 2 0 ≠ 0 := by decide

/-- The first and the last symbol of each range. -/
theorem test_witness_FixedCodesAreTheListedRanges :
    0 < 144 ∧ 143 < 144 ∧ 0 < 112 ∧ 111 < 112 ∧ 0 < 24 ∧ 23 < 24 ∧ 0 < 8 ∧ 7 < 8 ∧ 0 < 32 ∧ 31 < 32 := by decide

/-- FR-6's kind: three records, and the empty stream. Also for `RecordsOfStreamAreUnique`. -/
theorem test_witness_AssemblyMapsRecordsInOrder :
    (readyPlain rec32).valid .PLAIN = true ∧ (readyPlain rec32).valid .VER = true ∧
    SplitsInto candidate (readyPlain rec32).ver (readyPlain rec32).plain section3 ∧
    SplitsInto candidate (readyPlain []).ver (readyPlain []).plain [] :=
  ⟨by decide, by decide, (assemble_eq_some_iff _ _ _ _).mp (by decide +kernel), .nil⟩

/-- FR-F2. -/
theorem test_witness_AssemblyMapsRecordsInOrder_cut :
    let s := readyPlain (bs [0x42, 0x00, 0x30, 0x00, 0x01, 0x02])
    s.valid .PLAIN = true ∧ s.valid .VER = true ∧ ¬∃ ps, SplitsInto candidate s.ver s.plain ps :=
  ⟨by decide, by decide, (assemble_eq_none_iff _ _ _).mp (by decide +kernel)⟩

theorem test_witness_PlainSectionRunCompletes :
    (ready rec32).valid .IN = true ∧ (ready rec32).valid .VER = true ∧ (ready rec32).icur ≤ (ready rec32).inp.length ∧
    SplitsInto candidate (ready rec32).ver ((ready rec32).inp.drop (ready rec32).icur) section3 :=
  ⟨by decide, by decide, by decide, (assemble_eq_some_iff _ _ _ _).mp (by decide +kernel)⟩

/-- SEC-F11: the record stream of the failing clause. -/
theorem test_witness_PlainSectionRunCompletes_cut :
    let s := ready (rec32.take 31)
    s.valid .IN = true ∧ s.valid .VER = true ∧ s.icur ≤ s.inp.length ∧
      ¬∃ ps, SplitsInto candidate s.ver (s.inp.drop s.icur) ps :=
  ⟨by decide, by decide, by decide, (assemble_eq_none_iff _ _ _).mp (by decide +kernel)⟩

/-- A stored block of the bytes `42 00`, which are no record; and INF-F2, which is no deflate stream. -/
theorem test_witness_CompressedSectionRunCompletes_failing :
    inflate candidate.inflateIncomplete (bs [0x01, 0x02, 0x00, 0xfd, 0xff, 0x42, 0x00]) = some (bs [0x42, 0x00]) ∧
    (¬∃ ps, SplitsInto candidate ⟨7⟩ (bs [0x42, 0x00]) ps) ∧
    inflate candidate.inflateIncomplete ((ready (bs [0x07])).inp.drop (ready (bs [0x07])).icur) = none :=
  ⟨by decide +kernel, (assemble_eq_none_iff _ _ _).mp (by decide +kernel), by decide +kernel⟩

theorem test_witness_CompressedSectionRunCompletes :
    (ready z34).valid .IN = true ∧ (ready z34).valid .VER = true ∧ (ready z34).icur ≤ (ready z34).inp.length ∧
    inflate candidate.inflateIncomplete ((ready z34).inp.drop (ready z34).icur) = some rec32 ∧
    SplitsInto candidate (ready z34).ver rec32 section3 :=
  ⟨by decide, by decide, by decide, by decide +kernel, (assemble_eq_some_iff _ _ _ _).mp (by decide +kernel)⟩

/-- SEC-3: the uncompressed clause. -/
theorem test_witness_DistributedSectionRunCompletes :
    let s := ready (lead ++ ddp3)
    let ct := (s.inp.drop s.icur).drop (leadHeader.hlen + 256)
    let ob := toBuffer 256 (((s.inp.drop s.icur).drop leadHeader.hlen).take 256)
    s.valid .IN = true ∧ s.valid .VER = true ∧ s.icur ≤ s.inp.length ∧
    frameAt candidate (s.inp.drop s.icur) = some leadHeader ∧ leadHeader.tagId = candidate.tagDistDocData ∧
    leadHeader.size = 256 ∧ leadHeader.hlen + 256 ≤ (s.inp.drop s.icur).length ∧ ct.length % 16 = 0 ∧
    rec32 = ecbDecrypt candidate (deriveKey candidate ob) ct ∧ SplitsInto candidate s.ver rec32 section3 :=
  ⟨by decide +kernel, by decide +kernel, by decide +kernel, by decide +kernel, by decide, by decide,
    by decide +kernel, by decide +kernel, by decide +kernel, (assemble_eq_some_iff _ _ _ _).mp (by decide +kernel)⟩

/-- SEC-4: the compressed clause. -/
theorem test_witness_DistributedSectionRunCompletes_compressed :
    let s := ready (lead ++ ddp4)
    let ct := (s.inp.drop s.icur).drop (leadHeader.hlen + 256)
    let ob := toBuffer 256 (((s.inp.drop s.icur).drop leadHeader.hlen).take 256)
    s.valid .IN = true ∧ s.valid .VER = true ∧ s.icur ≤ s.inp.length ∧
    frameAt candidate (s.inp.drop s.icur) = some leadHeader ∧ ct.length % 16 = 0 ∧
    leadHeader.hlen + 256 ≤ (s.inp.drop s.icur).length ∧
    inflate candidate.inflateIncomplete (ecbDecrypt candidate (deriveKey candidate ob) ct) = some rec32 := by
  decide +kernel

def errorOf {ε α : Type} : Except ε α → Option ε
  | .ok _ => none
  | .error e => some e

def raised {α : Type} : StageOut α → Option (ErrKind × Stage)
  | .ok _ _ => none
  | .err k g _ => some (k, g)

/-- Both clauses of the big-step reading are met, here in the plain case (SEC-1, SEC-F11). -/
theorem test_witness_SectionRunRefinesSectionFunction :
    (sectionOf candidate false false ⟨7⟩ rec32).toOption = some section3 ∧
    errorOf (sectionOf candidate false false ⟨7⟩ (rec32.take 31)) = some (.assemble, .truncatedStream) := by
  decide +kernel

/-- An error past `Start` in a distributed run (SEC-F8) and one at `Start` (SEC-F3). -/
theorem test_witness_SectionRunRefinesSectionFunction_stages :
    errorOf (sectionOf candidate true true ⟨7⟩ lead) = some (.decompress, .decompressionFailure) ∧
    errorOf (sectionOf candidate true true ⟨7⟩ (bs [0x1c, 0x00, 0x10, 0x10])) = some (.start, .malformedRecord) := by
  decide +kernel

/-- At `Config.params`: the empty stream is a section of no paragraphs, and an empty distributed stream is an error. -/
theorem test_witness_SectionRunRefinesSectionFunction_config :
    sectionOf Config.params false false ⟨7⟩ [] = .ok [] ∧
    sectionOf Config.params true true ⟨7⟩ [] = .error (.start, .truncatedStream) ∧
    (ready []).valid .IN = true ∧ (ready []).valid .VER = true ∧ (ready []).icur ≤ (ready []).inp.length := by
  refine ⟨rfl, ?_, by decide, by decide, by decide⟩
  simp [sectionOf, plaintextOf, leadingRecord, frameAt_nil]

/-- A stage that goes on and a stage that raises, in its own `FSM` code. -/
theorem test_witness_OrchestratorFollowsTransitionTable :
    (ready rec32).fsm = Stage.start.code ∧
    raised (orchStep candidate [] (ready rec32)) = none ∧
    ((readyPlain (rec32.take 31)).setFsm .assemble).fsm = Stage.assemble.code ∧
    raised (orchStep candidate [] ((readyPlain (rec32.take 31)).setFsm .assemble)) =
      some (.truncatedStream, .assemble) := by decide +kernel

/-- SEC-F1 (the tag) and SEC-F3 (the size, with the record cut short). -/
theorem test_witness_LeadingRecordCheckedFirst :
    let s := ready (bs [0x1d, 0x00, 0x00, 0x10])
    let u := ready (bs [0x1c, 0x00, 0x10, 0x10])
    s.valid .IN = true ∧ s.valid .VER = true ∧
    frameAt candidate (s.inp.drop s.icur) = some ⟨0x1D, 0, 256, 4, by decide⟩ ∧ 0x1D#32 ≠ candidate.tagDistDocData ∧
    frameAt candidate (u.inp.drop u.icur) = some ⟨0x1C, 0, 257, 4, by decide⟩ ∧ 257#32 ≠ 256#32 := by
  decide +kernel

/-- SEC-F6 (no header at all) and SEC-F5 (a header cut short). -/
theorem test_witness_CutLeadingHeaderTruncated :
    (ready []).valid .IN = true ∧ (ready []).valid .VER = true ∧ (ready []).inp.length ≤ (ready []).icur ∧
    frameAt candidate ((ready (bs [0x1c, 0x00])).inp.drop (ready (bs [0x1c, 0x00])).icur) = none := by decide

/-- SEC-F4: the first 100 bytes of `LEAD`. -/
theorem test_witness_CutLeadingPayloadTruncated :
    let s := ready (lead.take 100)
    s.valid .IN = true ∧ s.valid .VER = true ∧ frameAt candidate (s.inp.drop s.icur) = some leadHeader ∧
    leadHeader.tagId = candidate.tagDistDocData ∧ leadHeader.size = 256 ∧
    (s.inp.drop s.icur).length < leadHeader.hlen + 256 := by decide +kernel

/-- SEC-F7. -/
theorem test_witness_MisalignedDistributedRunFails :
    let s := ready (lead ++ ddp3.take 31)
    s.valid .IN = true ∧ s.valid .VER = true ∧ frameAt candidate (s.inp.drop s.icur) = some leadHeader ∧
    leadHeader.hlen + 256 ≤ (s.inp.drop s.icur).length ∧
    ((s.inp.drop s.icur).drop (leadHeader.hlen + 256)).length % 16 ≠ 0 := by decide +kernel

/-- The key of KD-4 as `LEAD` carries it. -/
theorem test_kd4 : deriveKey candidate (toBuffer 256 blockKD4) = keyK := by decide +kernel

/-- SEC-F8: `LEAD` alone, whose empty plaintext is no deflate stream. -/
theorem test_witness_DistributedRunFailsAfterDecryption_inflate :
    let rest := (ready lead).inp.drop (ready lead).icur
    (ready lead).valid .IN = true ∧ (ready lead).valid .VER = true ∧ frameAt candidate rest = some leadHeader ∧
    leadHeader.tagId = candidate.tagDistDocData ∧ leadHeader.size = 256 ∧ leadHeader.hlen + 256 ≤ rest.length ∧
    (rest.drop (leadHeader.hlen + 256)).length % 16 = 0 ∧
    toBuffer 256 ((rest.drop leadHeader.hlen).take 256) = toBuffer 256 blockKD4 ∧
    inflate candidate.inflateIncomplete (ecbDecrypt candidate keyK (rest.drop (leadHeader.hlen + 256))) = none := by
  decide +kernel

/-- SEC-F12: sixteen zero bytes decrypt to `00 01 ... 0f`, a record of 48 bytes with 12 left. -/
theorem test_witness_DistributedRunFailsAfterDecryption_records :
    let rest := (ready (lead ++ List.replicate 16 0)).inp.drop (ready (lead ++ List.replicate 16 0)).icur
    frameAt candidate rest = some leadHeader ∧ leadHeader.hlen + 256 ≤ rest.length ∧
    (rest.drop (leadHeader.hlen + 256)).length % 16 = 0 ∧
    keyK.toList = ecbDecrypt candidate keyK (rest.drop (leadHeader.hlen + 256)) ∧
    ¬∃ ps, SplitsInto candidate ⟨7⟩ keyK.toList ps :=
  ⟨by decide +kernel, by decide +kernel, by decide +kernel, by decide +kernel,
    (assemble_eq_none_iff _ _ _).mp (by decide +kernel)⟩

/-- The same with `COMP`: a stored block of the bytes `42 00` and padding, under `K`; `42 00` is no record. -/
theorem test_witness_DistributedRunFailsAfterDecryption_compressed :
    let pt := bs [0x01, 0x02, 0x00, 0xfd, 0xff, 0x42, 0x00] ++ List.replicate 9 0
    let rest := lead ++ ecbEncrypt candidate.blockDecrypt keyK pt
    frameAt candidate rest = some leadHeader ∧ leadHeader.hlen + 256 ≤ rest.length ∧
    (rest.drop (leadHeader.hlen + 256)).length % 16 = 0 ∧
    ecbDecrypt candidate keyK (rest.drop (leadHeader.hlen + 256)) = pt ∧
    inflate candidate.inflateIncomplete pt = some (bs [0x42, 0x00]) ∧
    ¬∃ ps, SplitsInto candidate ⟨7⟩ (bs [0x42, 0x00]) ps :=
  ⟨by decide +kernel, by decide +kernel, by decide +kernel, by decide +kernel, by decide +kernel,
    (assemble_eq_none_iff _ _ _).mp (by decide +kernel)⟩

/-- SEC-5: at any parameters, a plain run of the empty stream completes. -/
theorem test_witness_PlainRunEqualsDecodeThenAssemble :
    (ready []).valid .IN = true ∧ (ready []).valid .VER = true ∧
    exec (secInstr false false) (ready []) = .next (commandWith Config.params .secRunPU (ready [])) ∧
    (commandWith Config.params .secRunPU (ready [])).fsm = 5#3 := by
  refine ⟨by decide, by decide, exec_eq_commandWith _ _, rfl⟩

/-- SEC-3 and SEC-4. -/
theorem test_witness_DistributedRunEqualsDeriveDecodeAssemble :
    (commandWith candidate (secInstr true false) (ready (lead ++ ddp3))).fsm = 5#3 ∧
    (commandWith candidate (secInstr true true) (ready (lead ++ ddp4))).fsm = 5#3 ∧
    frameAt candidate ((ready (lead ++ ddp4)).inp.drop (ready (lead ++ ddp4)).icur) = some leadHeader :=
  ⟨test_secRunDU.2.2.1, test_secRunDC.2.2.1, by decide +kernel⟩

/-- DDP-3 and DDP-4 as encryptions with the key of KD-4: the XOR stand-in is its own inverse. -/
theorem test_witness_DistributedRoundTrip :
    let ob := toBuffer 256 blockKD4
    let enc := candidate.blockDecrypt
    let s := ready (lead ++ ddp3)
    let u := ready (lead ++ ddp4)
    s.inp.drop s.icur = lead.take 4 ++ ob.toList ++ ecbEncrypt enc (deriveKey candidate ob) rec32 ∧
    rec32.length % 16 = 0 ∧ leadHeader.hlen = (lead.take 4).length ∧
    u.inp.drop u.icur =
      lead.take 4 ++ ob.toList ++ ecbEncrypt enc (deriveKey candidate ob) (z34 ++ List.replicate 14 0) ∧
    (z34 ++ List.replicate 14 0).length % 16 = 0 ∧
    inflate candidate.inflateIncomplete (z34 ++ List.replicate 14 0) = some rec32 := by
  simp only [test_kd4]
  decide +kernel

theorem test_witness_DistributedRoundTrip_inverse (k b : Vector Byte 16) :
    candidate.blockDecrypt k (candidate.blockDecrypt k b) = b := by
  apply Vector.ext
  intro i hi
  simp [candidate]

/-- A refusal for want of each of two bits: SEC-R1 (`VER`), SEC-R2 (`IN`). -/
theorem test_witness_RefusalChangesCstAlone :
    (∃ n ∈ requiredBits .secRunPU, (State.reset.writeIn rec32).vld.getLsbD n = false) ∧
    (∃ n ∈ requiredBits .secRunDC, (State.reset.writeVer ⟨7⟩).vld.getLsbD n = false) ∧
    (∀ n ∈ requiredBits .secRunDC, (ready rec32).vld.getLsbD n = true) ∧ decode 0x21#8 = .error .flagsReserved := by
  decide

/-- Also for `ErrorLeavesNothingToRead`, whose inner premise SEC-F9 meets at any parameters. -/
theorem test_witness_CommandsRaiseOnlyTheirErrors :
    ownsErr .secRunPC = true ∧ (ready []).operandsValid .secRunPC = true := by decide

theorem test_witness_ErrorLeavesNothingToRead :
    exec .secRunDC (ready []) = .next (commandWith Config.params .secRunDC (ready [])) ∧
    (commandWith Config.params .secRunDC (ready [])).err ≠ 0#6 := by
  refine ⟨exec_eq_commandWith _ _, ?_⟩
  rw [show Instr.secRunDC = secInstr true true from rfl, commandWith_secInstr _ _ _ _ (by decide) (by decide),
    secRun_dist _ _ _ (by decide)]
  simp [distResult, show (ready []).inp.drop (ready []).icur = [] from rfl, frameAt_nil]

/-- Reset meets the invariant, and a step from it answers a next state. -/
theorem test_witness_StepKeepsInvariant : State.reset.Inv ∧ step State.reset = .next State.reset := by
  refine ⟨⟨?_, ?_, ?_, ?_, ?_, ?_⟩, rfl⟩ <;> decide

/-- Two states that agree and are not equal: `S` behind a clear bit differs. -/
theorem test_witness_UnwrittenStateIsNeverRead :
    State.reset.Agree { State.reset with regS := 1 } ∧ State.reset ≠ { State.reset with regS := 1 } := by
  refine ⟨⟨rfl, rfl, rfl, rfl, rfl, rfl, rfl, ?_, ?_, ?_, ?_, ?_, ?_, ?_, ?_, ?_, ?_⟩, by decide⟩ <;>
    intro h <;> first | rfl | exact absurd h (by decide)

end Sys2Proof.Tests
end

section
/-! PROOFS. What reset leaves (spec/10_state.md R34): the values of its registers, no valid item, and so no command whose
operands are valid. -/

namespace Sys2Proof.Machine

/-- No item is valid after reset (R34). -/
@[simp] theorem State.reset_valid (a : Item) : State.reset.valid a = false := by
  simp [State.valid, State.reset]

/-- The `require` line of every command fails after reset: each names at least one item (R296). -/
@[simp] theorem State.reset_operandsValid (i : Instr) : State.reset.operandsValid i = false := by
  cases i <;> simp [State.operandsValid, requiredItems]

/-- A command whose `require` line fails is refused, whichever command it is (R296). -/
theorem exec_of_operandsInvalid (i : Instr) (s : State) (h : s.operandsValid i = false) :
    exec i s = .next (s.refuse .useBeforeWrite) := by
  rw [exec_eq_commandWith]
  cases i <;>
    simp only [commandWith, lprngNew, lprngDraw, kdDerive, ddpDecodePU, ddpDecodePC, ddpDecodeKU, ddpDecodeKC,
      rpaAssemble, secRunPU, secRunPC, secRunDU, secRunDC, State.require_of_invalid _ _ _ h]

/-- A refusal for want of a valid operand writes 2 to `CST` and nothing else (R28, R296). -/
theorem State.refuse_useBeforeWrite_eq (s : State) : s.refuse .useBeforeWrite = { s with cst := 2#2 } := rfl

/-- Settles O7: the registers' values are the reset state's own fields, no validity bit is set, and so the `require` line
of a draw fails. -/
theorem resetValues : Obligations.ResetValues := by
  unfold Obligations.ResetValues
  have hdraw : exec .lprngDraw State.reset = .next { State.reset with cst := 2#2 } := by
    rw [exec_of_operandsInvalid _ _ (State.reset_operandsValid _), State.refuse_useBeforeWrite_eq]
  exact ⟨rfl, rfl, rfl, rfl, rfl, rfl, State.reset_valid, hdraw⟩

end Sys2Proof.Machine
end

section
/-! PROOFS. The decoder accepts no byte but those of the twelve commands (spec/30_encoding.md R80, R81): what it answers
encodes back to the byte it read. So a reserved byte is refused (R90). -/

namespace Sys2Proof

/-- The fields of a command byte are all of it (R80). -/
@[simp] theorem cmdByte_cmdFields (c : Byte) : cmdByte (cmdFields c) = c := by
  revert c
  decide

/-- R80's table names a command by the command's own fields. -/
theorem fields_of_lookupCommand {u : BitVec 4} {f1 f0 : Bool} {i : Instr} (h : lookupCommand u f1 f0 = some i) :
    i.fields = ⟨u, 0#2, f1, f0⟩ := by
  unfold lookupCommand at h
  split at h <;> cases h
  all_goals
    rename_i hu
    simp only [Instr.fields, CmdFields.mk.injEq, and_true]
    exact BitVec.eq_of_toNat_eq hu.symm

/-- What the decoder accepts: a byte with `Z = 0` whose `(UNIT, F1, F0)` stands in R80's table (R81). -/
theorem zClear_and_lookupCommand_of_decode {c : Byte} {i : Instr} (h : decode c = .ok i) :
    (cmdFields c).z = 0#2 ∧ lookupCommand (cmdFields c).unit (cmdFields c).f1 (cmdFields c).f0 = some i := by
  simp only [decode] at h
  split at h
  · cases h
  case isFalse hz =>
    split at h
    · cases h
    · split at h
      case h_1 j hj =>
        cases h
        exact ⟨by simpa [CmdFields.zClear] using hz, hj⟩
      case h_2 => cases h

/-- The fields of a byte that decodes are the fields of its command (R81). -/
theorem cmdFields_of_decode {c : Byte} {i : Instr} (h : decode c = .ok i) : cmdFields c = i.fields := by
  obtain ⟨hz, hlookup⟩ := zClear_and_lookupCommand_of_decode h
  rw [fields_of_lookupCommand hlookup, ← hz]

/-- The byte that decodes to a command is the command's own byte (R80, R81). -/
theorem encode_of_decode {c : Byte} {i : Instr} (h : decode c = .ok i) : encode i = c := by
  rw [encode, ← cmdFields_of_decode h, cmdByte_cmdFields]

/-- A command's byte is one of the twelve of R80's table. -/
theorem encode_mem_commandBytes (i : Instr) :
    encode i ∈ [0x10#8, 0x11#8, 0x20#8, 0x30#8, 0x31#8, 0x32#8, 0x33#8, 0x40#8, 0x50#8, 0x51#8, 0x52#8, 0x53#8] := by
  cases i <;> decide

namespace Machine

/-- A refusal of a reserved byte writes 1 to `CST` and nothing else (R28, R90). -/
theorem State.refuse_illegalCommand_eq (s : State) : s.refuse .illegalCommand = { s with cst := 1#2 } := rfl

/-- Issuing a byte that does not decode writes `CST` alone, whatever makes it reserved (R81, R90). -/
theorem issueCommand_of_decode_error {c : Byte} {e : DecodeError} (s : State) (h : decode c = .error e) :
    issueCommand c s = .next { s with cst := 1#2 } := by
  simp only [issueCommand, h, State.refuse_illegalCommand_eq]

/-- Settles O3: a byte that decoded would be the byte of its command, hence one of the twelve. -/
theorem reservedByteRefused : Obligations.ReservedByteRefused := by
  unfold Obligations.ReservedByteRefused
  intro c s hc
  cases hdec : decode c with
  | error e => exact issueCommand_of_decode_error s hdec
  | ok i =>
    have hmem := encode_mem_commandBytes i
    rw [encode_of_decode hdec] at hmem
    exact absurd hmem hc

end Machine
end Sys2Proof
end

section
/-! PROOFS. The seeding command (spec/40_lprng.md R114): with `ARG` valid it copies `ARG` into `S`, otherwise it is
refused. -/

namespace Sys2Proof.Machine

/-- `ARG` is the one operand of LPRNG.NEW (R296). -/
@[simp] theorem State.operandsValid_lprngNew (s : State) : s.operandsValid .lprngNew = s.valid .ARG := by
  simp [State.operandsValid, requiredItems]

/-- A seeding that is not refused writes `S` and `CST`, in the model's own terms (R114). -/
theorem exec_lprngNew_of_valid (s : State) (h : s.valid .ARG = true) :
    exec .lprngNew s = .next ((s.writeS s.regArg).setCst .ok) := by
  rw [← s.operandsValid_lprngNew] at h
  rw [exec_eq_commandWith, commandWith, lprngNew, State.require_of_valid _ _ _ h]

/-- A completed seeding leaves every field but `regS`, bit 0 of `vld` and `cst` (R23, R28, R114). -/
theorem State.writeS_setCst_ok_eq (s : State) (v : Word) :
    (s.writeS v).setCst .ok = { s with regS := v, vld := s.vld ||| 0x001#9, cst := 0#2 } := rfl

/-- Settles O11: the `require` line asks for `ARG` alone, so the seeding completes with it and is refused without it. -/
theorem seedingLoadsArgument : Obligations.SeedingLoadsArgument := by
  unfold Obligations.SeedingLoadsArgument
  intro s
  refine ⟨by decide, fun hvalid => ?_, fun hinvalid => ?_⟩
  · rw [exec_lprngNew_of_valid s hvalid, State.writeS_setCst_ok_eq]
  · rw [exec_of_operandsInvalid _ _ (s.operandsValid_lprngNew.trans hinvalid), State.refuse_useBeforeWrite_eq]

end Sys2Proof.Machine
end

section
/-! PROOFS. Key derivation (spec/41_key_derivation.md): the seed as a number (R131), the offset (R137), and the key byte
by byte (R136 to R139). -/

namespace Sys2Proof.Machine

/-- The offset as a number: the mask `0xF` keeps the seed modulo 16 (R137). -/
theorem kdOffset_eq (seed : Word) : kdOffset seed = seed.toNat % 16 + 4 := by
  have hmask : (seed &&& 0xF#32).toNat = seed.toNat % 2 ^ 4 := by
    rw [BitVec.toNat_and]
    exact Nat.and_two_pow_sub_one_eq_mod seed.toNat 4
  simpa [kdOffset] using hmask

/-- Settles O16: the seed modulo 16 is at most 15, so the offset is at most 19 and the window ends at 99 or before. -/
theorem offsetKeepsWindowInside : Obligations.OffsetKeepsWindowInside := by
  unfold Obligations.OffsetKeepsWindowInside
  intro seed
  rw [kdOffset_eq]
  omega

/-- A byte appended at the low end is one digit in base 2^8. -/
theorem toNat_append_byte {n : Nat} (x : BitVec n) (b : Byte) : (x ++ b).toNat = x.toNat * 2 ^ 8 + b.toNat := by
  rw [BitVec.toNat_append, ← Nat.shiftLeft_add_eq_or_of_lt b.isLt, Nat.shiftLeft_eq]

/-- `LE32` as a number: the first byte is the least significant digit (R10, R131). -/
theorem le32_eq_ofNat (b0 b1 b2 b3 : Byte) :
    le32 b0 b1 b2 b3 =
      BitVec.ofNat 32 (b0.toNat + 2 ^ 8 * b1.toNat + 2 ^ 16 * b2.toNat + 2 ^ 24 * b3.toNat) := by
  apply BitVec.eq_of_toNat_eq
  rw [le32, toNat_append_byte, toNat_append_byte, toNat_append_byte, BitVec.toNat_ofNat]
  have h0 := b0.isLt
  have h1 := b1.isLt
  have h2 := b2.isLt
  have h3 := b3.isLt
  omega

/-- The seed as a number: the first four block bytes, little-endian (R131). -/
theorem kdSeed_eq (ob : Vector Byte 256) :
    kdSeed ob = BitVec.ofNat 32
      (ob[0].toNat + 2 ^ 8 * ob[1].toNat + 2 ^ 16 * ob[2].toNat + 2 ^ 24 * ob[3].toNat) :=
  le32_eq_ofNat _ _ _ _

/-- The pad has 256 bytes, whatever the draws: every run that starts below 256 makes it longer (R132, R134). -/
@[simp] theorem kdPadgen_pad_length (P : Params) (seed : Word) : (kdPadgen P seed).pad.length = 256 :=
  kdRuns_length P 256 _ (by simp) (by simp)

/-- Byte `i` of the recovered block is the block byte XOR the pad byte, where both have one (R136). -/
theorem kdXor_getD (ob : Vector Byte 256) (pad : List Byte) (i : Nat) (hi : i < 256) (hpad : i < pad.length) :
    (kdXor ob pad).getD i 0 = ob.toList.getD i 0 ^^^ pad.getD i 0 := by
  simp [kdXor, xorBytes, hi, hpad]

/-- Byte `i` of the key is byte `off + i` of the recovered block (R138, R139). -/
theorem kdKey_kdWindow_getElem (off : Nat) (rb : List Byte) (i : Nat) (hi : i < 16) :
    (kdKey (kdWindow off rb))[i] = rb.getD (off + i) 0 := by
  rw [kdKey, toBuffer_getElem, List.getD_eq_getElem?_getD, kdWindow, slice_getElem? _ _ _ _ (by omega),
    ← List.getD_eq_getElem?_getD]

/-- Byte `i` of the derived key is the block byte XOR the pad byte at the offset plus `i` (R136 to R139). -/
theorem deriveKey_getElem (P : Params) (ob : Vector Byte 256) (i : Nat) (hi : i < 16) :
    (deriveKey P ob)[i] = ob.toList.getD (kdOffset (kdSeed ob) + i) 0 ^^^
      (kdPadgen P (kdSeed ob)).pad.getD (kdOffset (kdSeed ob) + i) 0 := by
  have hin : kdOffset (kdSeed ob) + i < 256 := by
    rw [kdOffset_eq]
    omega
  rw [deriveKey, kdKey_kdWindow_getElem _ _ i hi, kdXor_getD _ _ _ hin (by simpa using hin)]

/-- `OB` is the one operand of KD.DERIVE (R296). -/
@[simp] theorem State.operandsValid_kdDerive (s : State) : s.operandsValid .kdDerive = s.valid .OB := by
  simp [State.operandsValid, requiredItems]

/-- A derivation that is not refused runs the unit and completes (R130). -/
theorem exec_kdDerive_of_valid (s : State) (h : s.valid .OB = true) :
    exec .kdDerive s = .next ((s.keyDerivation Config.params).setCst .ok) := by
  rw [← s.operandsValid_kdDerive] at h
  rw [exec_eq_commandWith, commandWith, kdDerive, State.require_of_valid _ _ _ h]

/-- Key derivation sets `KEYV` and clears `SV`: `S` was valid only while the pad was made (R23, R130, R141). -/
theorem State.keyDerivation_vld (P : Params) (s : State) :
    (s.keyDerivation P).vld = (s.vld ||| 0x004#9) &&& ~~~0x001#9 := by
  refine State.vld_ext (t := (s.validate .KEY).invalidate .S) fun a => ?_
  cases a <;> simp [State.keyDerivation]

/-- A completed derivation leaves every field but `regS`, `key`, `vld` and `cst` (R130, R141). -/
theorem State.keyDerivation_setCst_ok_eq (P : Params) (s : State) :
    (s.keyDerivation P).setCst .ok =
      { s with regS := deriveLastS P s.ob, key := deriveKey P s.ob,
               vld := (s.vld ||| 0x004#9) &&& ~~~0x001#9, cst := 0#2 } := by
  rw [← State.keyDerivation_vld P s]
  rfl

/-- Settles O15: the machine's seed and offset are the statement's numbers, and the key is XORed byte by byte. -/
theorem derivedKeyIsBlockXorPad : Obligations.DerivedKeyIsBlockXorPad := by
  unfold Obligations.DerivedKeyIsBlockXorPad
  intro s hvalid
  rw [← kdSeed_eq]
  intro seed off pad
  refine ⟨_, exec_kdDerive_of_valid s hvalid, fun i hi => ?_, ?_⟩
  · have hkey := deriveKey_getElem Config.params s.ob i hi
    rwa [kdOffset_eq] at hkey
  · rw [State.keyDerivation_setCst_ok_eq]

end Sys2Proof.Machine
end

section
/-! PROOFS. The uncompressed decodes (spec/42_decrypt_decompress.md): with no key the remainder of the stream is the
plaintext (R167); with one, the remainder is checked for alignment and decrypted block by block (R163, R169). -/

namespace Sys2Proof.Machine

/-- A DDP.DECODE needs `IN`, and `KEY` when it is keyed (R296). -/
theorem State.operandsValid_ddpInstr (keyed comp : Bool) (s : State) :
    s.operandsValid (ddpInstr keyed comp) = (s.valid .IN && (!keyed || s.valid .KEY)) := by
  cases keyed <;> cases comp <;> simp [State.operandsValid, ddpInstr, requiredItems]

/-- A DDP.DECODE that is refused writes 2 to `CST` and nothing else (R296). -/
theorem exec_ddpInstr_of_invalid (keyed comp : Bool) (s : State)
    (h : (s.valid .IN && (!keyed || s.valid .KEY)) = false) :
    exec (ddpInstr keyed comp) s = .next { s with cst := 2#2 } := by
  rw [exec_of_operandsInvalid _ _ ((s.operandsValid_ddpInstr keyed comp).trans h), State.refuse_useBeforeWrite_eq]

/-- A DDP.DECODE that is not refused answers its whole next state (R167 to R170). -/
theorem exec_ddpInstr_of_valid (keyed comp : Bool) (s : State) (hin : s.valid .IN = true)
    (hkey : keyed = true → s.valid .KEY = true) (hcur : s.icur ≤ s.inp.length) :
    exec (ddpInstr keyed comp) s = .next (ddpResult Config.params keyed comp s) := by
  rw [exec_eq_commandWith, commandWith_ddpInstr _ _ _ _ hin hkey, ddpDecode_eq _ _ _ _ hcur]

/-- With no key and no compression the remainder of the stream is handed on as it is (R164, R167). -/
theorem ddpResult_unkeyed_uncompressed (P : Params) (s : State) :
    ddpResult P false false s =
      { s with
        mode := 0#2, err := 0#6, icur := s.inp.length, plain := s.inp.drop s.icur,
        vld := (s.vld ||| 0x010#9) &&& ~~~0x008#9, cst := 0#2 } := by
  simp [ddpResult, modeBits]

/-- A keyed decode of a remainder that is not whole blocks fails before any block is decrypted, and so whether or not
the plaintext would be inflated (R162, R300). -/
theorem ddpResult_keyed_of_misaligned (P : Params) (comp : Bool) (s : State)
    (h : (s.inp.length - s.icur) % 16 ≠ 0) :
    ddpResult P true comp s =
      { s with
        mode := modeBits true comp, err := 0x13#6, icur := s.inp.length,
        vld := s.vld &&& ~~~0x03C#9, cst := 0#2 } := by
  simp [ddpResult, h]

/-- A keyed decode of whole blocks, with no compression, makes `PLAIN` the decrypted remainder and drops the key (R163,
R169, R172). -/
theorem ddpResult_keyed_uncompressed_of_aligned (P : Params) (s : State) (h : (s.inp.length - s.icur) % 16 = 0) :
    ddpResult P true false s =
      { s with
        mode := 2#2, err := 0#6, icur := s.inp.length, plain := ecbDecrypt P s.key (s.inp.drop s.icur),
        vld := (s.vld ||| 0x010#9) &&& ~~~0x00C#9, cst := 0#2 } := by
  simp [ddpResult, h, modeBits]

/-- Decryption keeps the length of a remainder of whole blocks (R163). -/
theorem ecbDecrypt_drop_length (P : Params) (key : Vector Byte 16) (inp : List Byte) (cur : Nat)
    (h : (inp.length - cur) % 16 = 0) : (ecbDecrypt P key (inp.drop cur)).length = inp.length - cur := by
  rw [ecbDecrypt_length, List.length_drop]
  omega

/-- Block `b` of the decrypted remainder is the decryption of the sixteen bytes at the cursor plus `16 * b` (R163). -/
theorem ecbDecrypt_drop_block (P : Params) (key : Vector Byte 16) (inp : List Byte) (cur b : Nat)
    (hb : b < (inp.length - cur) / 16) :
    ((ecbDecrypt P key (inp.drop cur)).drop (16 * b)).take 16 =
      (P.blockDecrypt key (toBuffer 16 ((inp.drop (cur + 16 * b)).take 16))).toList := by
  rw [ecbDecrypt_block _ _ _ _ (by rwa [List.length_drop]), slice, List.drop_drop, Nat.add_sub_cancel_left]

/-- Settles O24: the decode needs `IN` alone, and with neither flag set its stages hand the remainder on. -/
theorem plainDecodeCopiesRemainder : Obligations.PlainDecodeCopiesRemainder := by
  unfold Obligations.PlainDecodeCopiesRemainder
  intro s
  refine ⟨by decide, fun hin => ?_, fun hin hcur => ?_⟩
  · exact exec_ddpInstr_of_invalid false false s (by simp [hin])
  · rw [← ddpResult_unkeyed_uncompressed Config.params s]
    exact exec_ddpInstr_of_valid false false s hin nofun hcur

/-- Settles O26: the decode needs `IN` and `KEY`; the alignment of the remainder decides between the error entry and the
ECB stage, whose length and blocks are the statement's. -/
theorem keyedDecodeDecryptsBlocks : Obligations.KeyedDecodeDecryptsBlocks := by
  unfold Obligations.KeyedDecodeDecryptsBlocks
  intro s
  refine ⟨by decide, fun hinvalid => ?_, fun hin hkey hcur => ?_⟩
  · exact exec_ddpInstr_of_invalid true false s (by rwa [Bool.not_true, Bool.false_or, Bool.and_eq_false_iff])
  · have hexec := exec_ddpInstr_of_valid true false s hin (fun _ => hkey) hcur
    refine ⟨fun hmisaligned => ?_, fun haligned => ?_⟩
    · rw [ddpResult_keyed_of_misaligned _ _ _ hmisaligned] at hexec
      exact hexec
    · rw [ddpResult_keyed_uncompressed_of_aligned _ _ haligned] at hexec
      exact ⟨_, hexec, ecbDecrypt_drop_length _ _ _ _ haligned,
        fun b hb => ecbDecrypt_drop_block _ _ _ _ b hb, rfl⟩

end Sys2Proof.Machine
end

section
/-! PROOFS. Record assembly (spec/44_record_assembly.md R238): the stage writes `OUT` once, from the whole stream, or
raises `TruncatedStream(Assemble)`. -/

namespace Sys2Proof.Machine

/-- `PLAIN` and `VER` are the operands of RPA.ASSEMBLE (R296). -/
@[simp] theorem State.operandsValid_rpaAssemble (s : State) :
    s.operandsValid .rpaAssemble = (s.valid .PLAIN && s.valid .VER) := by
  simp [State.operandsValid, requiredItems]

/-- An assembly that is not refused runs its stage with `ERR` 0 and ends as the stage does (R238). -/
theorem commandWith_rpaAssemble_of_valid (P : Params) (s : State) (hplain : s.valid .PLAIN = true)
    (hver : s.valid .VER = true) :
    commandWith P .rpaAssemble s = (rpaStage P (s.setErr 0)).finish false := by
  rw [commandWith, rpaAssemble, State.require_of_valid _ _ _ (by simp [hplain, hver])]

/-- The stage on a stream of whole records: `OUT` takes the paragraphs and `PLAIN` is dropped (R238). -/
theorem rpaStage_of_splitsInto {P : Params} {s : State} {ps : List Paragraph} (h : SplitsInto P s.ver s.plain ps) :
    rpaStage P s = .ok () ((s.writeOut ps).invalidate .PLAIN) := by
  rw [rpaStage, (assemble_eq_some_iff ..).mpr h]

/-- The stage on any other stream raises its error with the state as it was (R234, R238). -/
theorem rpaStage_of_not_splitsInto {P : Params} {s : State} (h : ¬∃ ps, SplitsInto P s.ver s.plain ps) :
    rpaStage P s = .err .truncatedStream .assemble s := by
  rw [rpaStage, (assemble_eq_none_iff ..).mpr h]

/-- What a completed assembly leaves: `OUTV` is set and `PLAINV` cleared (R23, R238). -/
theorem State.writeOut_invalidate_setCst_ok_eq (s : State) (ps : List Paragraph) :
    ((s.writeOut ps).invalidate .PLAIN).setCst .ok =
      { s with out := ps, vld := (s.vld ||| 0x020#9) &&& ~~~0x010#9, cst := 0#2 } := rfl

/-- The error entry of a command that does not own `FSM`: the bits of `OUT`, `PLAIN`, `IN` and `KEY` are the mask 0x3C
(R23, R300). -/
theorem State.errorEntry_false_eq (k : ErrKind) (g : Stage) (s : State) :
    s.errorEntry false k g = { s with err := errCode k g, vld := s.vld &&& ~~~0x03C#9, cst := 0#2 } := by
  have hmask : ~~~Item.OUT.mask &&& (~~~Item.PLAIN.mask &&& (~~~Item.IN.mask &&& ~~~Item.KEY.mask)) = ~~~0x03C#9 := by
    decide
  simp only [State.errorEntry_eq, BitVec.and_assoc, hmask]
  rfl

/-- Settles O39: the `require` line asks for `PLAIN` and `VER`; whether the stream splits into whole records decides how
the stage ends, and each end is one of the statement's next states. -/
theorem assemblyMapsRecordsInOrder : Obligations.AssemblyMapsRecordsInOrder := by
  unfold Obligations.AssemblyMapsRecordsInOrder
  intro s
  refine ⟨by decide, fun hinvalid => ?_, fun hplain hver => ⟨exec_eq_commandWith _ _, fun P => ⟨?_, ?_⟩⟩⟩
  · rw [exec_of_operandsInvalid _ _ (by rwa [s.operandsValid_rpaAssemble, Bool.and_eq_false_iff]),
      State.refuse_useBeforeWrite_eq]
  · intro ps hsplits
    rw [commandWith_rpaAssemble_of_valid P s hplain hver, rpaStage_of_splitsInto (s := s.setErr 0) hsplits,
      StageOut.finish_ok, State.writeOut_invalidate_setCst_ok_eq]
    rfl
  · intro hnone
    rw [commandWith_rpaAssemble_of_valid P s hplain hver, rpaStage_of_not_splitsInto (s := s.setErr 0) hnone,
      StageOut.finish_err, State.errorEntry_false_eq, errCode_truncatedAssemble]
    rfl

end Sys2Proof.Machine
end

section
/-! PROOFS. Refusal and completion (spec/60_exceptions.md R296): the `require` line of a command reads the validity bits
of R296's table, and a command that passes it ends with `CST = Ok`, completed or failed (R28, R300). -/

namespace Sys2Proof.Machine

/-- The table of required bits is the table of required items, by the bit numbers of R23. -/
theorem requiredBits_eq_map_bit (i : Instr) : requiredBits i = (requiredItems i).map Item.bit := by
  cases i <;> rfl

/-- The `require` line passes exactly when every bit of the table is set (R296). -/
theorem State.operandsValid_iff_requiredBits (s : State) (i : Instr) :
    s.operandsValid i = true ↔ ∀ n ∈ requiredBits i, s.vld.getLsbD n = true := by
  simp [State.operandsValid, State.valid, requiredBits_eq_map_bit]

/-- The `require` line fails when a bit of the table is clear (R296). -/
theorem State.operandsInvalid_of_requiredBit_clear {s : State} {i : Instr}
    (h : ∃ n ∈ requiredBits i, s.vld.getLsbD n = false) : s.operandsValid i = false := by
  obtain ⟨n, hn, hclear⟩ := h
  rw [← Bool.not_eq_true, s.operandsValid_iff_requiredBits i]
  intro hall
  exact Bool.false_ne_true (hclear.symm.trans (hall n hn))

/-- Completion and the error entry both end with `CST <- Ok` (R300). -/
@[simp] theorem StageOut.finish_cst {α : Type} (b : Bool) (x : StageOut α) : (x.finish b).cst = 0#2 := by
  cases x with
  | ok v s => rfl
  | err k g s => rw [StageOut.finish_err, State.errorEntry_eq]; rfl

/-- A command whose `require` line passes ends as its effect does (R296). -/
theorem State.require_cst_of_valid {s : State} {i : Instr} {f : State → State} (h : s.operandsValid i = true)
    (hf : (f s).cst = 0#2) : (s.require i f).cst = 0#2 := by
  rwa [State.require_of_valid _ _ _ h]

/-- Only a refused command ends with another `CST` than `Ok`: the LPRNG and KD commands write it last, and the others
end by `StageOut.finish` (R28, R300). -/
theorem commandWith_cst_of_operandsValid (P : Params) (i : Instr) (s : State) (h : s.operandsValid i = true) :
    (commandWith P i s).cst = 0#2 := by
  cases i with
  | lprngNew | lprngDraw | kdDerive => exact State.require_cst_of_valid h rfl
  | ddpDecodePU | ddpDecodePC | ddpDecodeKU | ddpDecodeKC | rpaAssemble | secRunPU | secRunPC | secRunDU | secRunDC =>
    exact State.require_cst_of_valid h (StageOut.finish_cst _ _)

/-- Settles O53: a byte that does not decode and a command whose `require` line fails are refused; a command whose line
passes ends with `CST = Ok`. -/
theorem refusalChangesCstAlone : Obligations.RefusalChangesCstAlone := by
  unfold Obligations.RefusalChangesCstAlone
  refine ⟨fun c e s hdec => issueCommand_of_decode_error s hdec, fun i s => ⟨fun hclear => ?_, fun hset => ?_⟩⟩
  · rw [exec_of_operandsInvalid i s (State.operandsInvalid_of_requiredBit_clear hclear),
      State.refuse_useBeforeWrite_eq]
  · exact ⟨_, exec_eq_commandWith i s,
      commandWith_cst_of_operandsValid _ i s ((s.operandsValid_iff_requiredBits i).mpr hset)⟩

end Sys2Proof.Machine
end

section
/-! PROOFS. Decoding and encoding agree (spec/30_encoding.md R80, R81, R88), a step takes the host's next operation
(R85, log entry 1), and what each of the host's operations does. -/

namespace Sys2Proof

/-- Every command's byte splits into the command's fields, which R80's table names it by. -/
theorem Laws.CommandByte.statement (i : Instr) : Laws.CommandByte.Statement i := by
  cases i with
  | lprngNew => exact Laws.CommandByte.lprngNew
  | lprngDraw => exact Laws.CommandByte.lprngDraw
  | kdDerive => exact Laws.CommandByte.kdDerive
  | ddpDecodePU => exact Laws.CommandByte.ddpDecodePU
  | ddpDecodePC => exact Laws.CommandByte.ddpDecodePC
  | ddpDecodeKU => exact Laws.CommandByte.ddpDecodeKU
  | ddpDecodeKC => exact Laws.CommandByte.ddpDecodeKC
  | rpaAssemble => exact Laws.CommandByte.rpaAssemble
  | secRunPU => exact Laws.CommandByte.secRunPU
  | secRunPC => exact Laws.CommandByte.secRunPC
  | secRunDU => exact Laws.CommandByte.secRunDU
  | secRunDC => exact Laws.CommandByte.secRunDC

/-- A command's byte decodes to the command: its fields pass each check of R81 in turn. -/
theorem decode_encode (i : Instr) : decode (encode i) = .ok i := by
  obtain ⟨hwf, hfields, -, hlookup⟩ := Laws.CommandByte.statement i
  simp only [Instr.WellFormed, CmdFields.wf, Bool.and_eq_true] at hwf
  obtain ⟨⟨hz, hunit⟩, -⟩ := hwf
  simp [decode, hfields, hz, hunit, hlookup]

/-- Settles O2: R80's table is read by the fields of the byte, and the fields are all of the byte. -/
theorem decodeEncodeAgree : Obligations.DecodeEncodeAgree := by
  unfold Obligations.DecodeEncodeAgree
  exact ⟨fun i _ => decode_encode i, fun _ i h => ⟨encode_of_decode h, (Laws.CommandByte.statement i).1⟩⟩

/-- Settles O1: each byte of the table is the byte of its command. -/
theorem commandBytesDecode : Obligations.CommandBytesDecode := by
  unfold Obligations.CommandBytesDecode
  exact ⟨decode_encode .lprngNew, decode_encode .lprngDraw, decode_encode .kdDerive, decode_encode .ddpDecodePU,
    decode_encode .ddpDecodePC, decode_encode .ddpDecodeKU, decode_encode .ddpDecodeKC, decode_encode .rpaAssemble,
    decode_encode .secRunPU, decode_encode .secRunPC, decode_encode .secRunDU, decode_encode .secRunDC⟩

namespace Machine

/-! ### The step -/

/-- A step does the oldest pending host operation with that operation taken from the queue (log entry 1). -/
theorem step_of_hostq {s : State} {op : HostOp} {q : List HostOp} (h : s.hostq = op :: q) :
    step s = hostOp op { s with hostq := q } := by
  simp only [step, takeHostOp, h]

/-- With no host operation pending a step changes nothing (R316, R322). -/
theorem step_of_hostq_nil {s : State} (h : s.hostq = []) : step s = .next s := by
  simp only [step, takeHostOp, h]

/-- Issuing a byte that decodes runs its command (R81). -/
theorem issueCommand_of_decode_ok {c : Byte} {i : Instr} (s : State) (h : decode c = .ok i) :
    issueCommand c s = exec i s := by
  simp only [issueCommand, h]

/-- An issued byte runs the command it decodes to or is refused (R81, R90). -/
theorem issueCommand_cases (c : Byte) (s : State) :
    (∃ i, issueCommand c s = .next (commandWith Config.params i s)) ∨
      issueCommand c s = .next (s.refuse .illegalCommand) := by
  cases h : decode c with
  | ok i => exact .inl ⟨i, by rw [issueCommand_of_decode_ok s h, exec_eq_commandWith]⟩
  | error e => exact .inr (issueCommand_of_decode_error s h)

/-- Settles O4: the step takes the issued byte, and a byte that decodes runs its command. -/
theorem stepRunsIssuedCommand : Obligations.StepRunsIssuedCommand := by
  unfold Obligations.StepRunsIssuedCommand
  intro c s q hq
  have hstep : step s = issueCommand c { s with hostq := q } := step_of_hostq hq
  exact ⟨hstep, fun i hi => hstep.trans (issueCommand_of_decode_ok _ hi)⟩

/-- Settles O5. -/
theorem idleStepChangesNothing : Obligations.IdleStepChangesNothing := by
  unfold Obligations.IdleStepChangesNothing
  exact fun s hq => step_of_hostq_nil hq

/-- Every host operation answers a next state (R288). -/
theorem hostOp_next (op : HostOp) (s : State) : ∃ t, hostOp op s = .next t := by
  cases op with
  | issue c =>
    obtain ⟨i, h⟩ | h := issueCommand_cases c s
    · exact ⟨_, h⟩
    · exact ⟨_, h⟩
  | _ => exact ⟨_, rfl⟩

/-- Settles O6: `exec` is a meaning, which answers a state, and a step is idle or one host operation. -/
theorem nothingStopsTheEngine : Obligations.NothingStopsTheEngine := by
  unfold Obligations.NothingStopsTheEngine
  refine ⟨fun i s => ⟨_, exec_eq_commandWith i s⟩, fun s => ?_⟩
  cases hq : s.hostq with
  | nil => exact ⟨s, step_of_hostq_nil hq⟩
  | cons op q =>
    rw [step_of_hostq hq]
    exact hostOp_next op _

/-! ### The host's operations -/

/-- Settles O8: the step is `HostReset` on the state with that request taken, whose registers are those of R34. -/
theorem hostResetClears : Obligations.HostResetClears := by
  unfold Obligations.HostResetClears
  intro s q hq
  exact ⟨State.hostReset { s with hostq := q }, step_of_hostq hq, rfl, rfl, rfl, rfl, rfl, rfl, rfl, rfl⟩

/-- Settles O9: each load is a write of R11, or for `HostClearKEY` an invalidation. -/
theorem hostLoadsWriteTheirItem : Obligations.HostLoadsWriteTheirItem := by
  unfold Obligations.HostLoadsWriteTheirItem
  intro s q
  exact ⟨fun _ hq => step_of_hostq hq, fun _ hq => step_of_hostq hq, fun _ hq => step_of_hostq hq,
    fun _ hq => step_of_hostq hq, fun _ hq => step_of_hostq hq, fun hq => step_of_hostq hq,
    fun _ hq => step_of_hostq hq⟩

/-- Settles O10: a read leaves its answer in `reply`, guarded by the bit of the item, if the register has one (R23). -/
theorem hostReadsAnswerValidItems : Obligations.HostReadsAnswerValidItems := by
  unfold Obligations.HostReadsAnswerValidItems
  intro s q
  exact ⟨step_of_hostq, step_of_hostq, step_of_hostq, step_of_hostq, step_of_hostq, step_of_hostq, step_of_hostq,
    step_of_hostq, step_of_hostq, step_of_hostq, step_of_hostq, step_of_hostq, step_of_hostq⟩

end Machine
end Sys2Proof
end

section
/-! PROOFS. Drawing (spec/40_lprng.md R113, R115): the form of a draw (log entry 7), its bound (R116), and the draws
after a seed (R118). -/

namespace Sys2Proof.Machine

/-- `S` is the one operand of LPRNG.DRAW (R296). -/
@[simp] theorem State.operandsValid_lprngDraw (s : State) : s.operandsValid .lprngDraw = s.valid .S := by
  simp [State.operandsValid, requiredItems]

/-- The step of the PRNG as arithmetic on naturals modulo 2^32 (R113). -/
theorem lprngNext_eq_ofNat (P : Params) (v : Word) :
    lprngNext P v = BitVec.ofNat 32 (v.toNat * P.lprngA.toNat + P.lprngC.toNat) := by
  apply BitVec.eq_of_toNat_eq
  simp [lprngNext]

/-- A draw keeps no bit above the 16 of the mask (R116). -/
theorem lprngOut_lt (P : Params) (v : Word) : (lprngOut P v).toNat < 2 ^ 16 := by
  have hle : (lprngOut P v).toNat ≤ (P.lprngMask.setWidth 32).toNat := by
    rw [lprngOut, BitVec.toNat_and]
    exact Nat.and_le_right
  have hmask : (P.lprngMask.setWidth 32).toNat ≤ P.lprngMask.toNat := by
    rw [BitVec.toNat_setWidth]
    exact Nat.mod_le _ _
  have := P.lprngMask.isLt
  omega

/-- A draw that is not refused writes `S`, `RES` and `CST` (R115). -/
theorem exec_lprngDraw_of_valid (s : State) (h : s.valid .S = true) :
    exec .lprngDraw s = .next { s with
      regS := lprngNext Config.params s.regS, regRes := lprngOut Config.params (lprngNext Config.params s.regS),
      vld := s.vld ||| 0x080#9, cst := 0#2 } := by
  have hvld : s.vld ||| Item.S.mask = s.vld := State.vld_or_mask h
  rw [← s.operandsValid_lprngDraw] at h
  rw [exec_eq_commandWith, commandWith, lprngDraw, State.require_of_valid _ _ _ h]
  simp only [State.writeRes, State.writeS, State.validate, State.setCst, hvld]
  rfl

/-- Settles O12: the model's step and output are the statement's arithmetic. -/
theorem drawAdvancesAndLandsResult : Obligations.DrawAdvancesAndLandsResult := by
  unfold Obligations.DrawAdvancesAndLandsResult
  intro s
  refine ⟨by decide, fun hvalid => ?_, fun hinvalid => ?_⟩
  · rw [exec_lprngDraw_of_valid s hvalid, lprngNext_eq_ofNat]
    rfl
  · rw [exec_of_operandsInvalid _ _ (s.operandsValid_lprngDraw.trans hinvalid), State.refuse_useBeforeWrite_eq]

/-- Settles O13: `RES` is the output of the PRNG step. -/
theorem drawsAreBelow65536 : Obligations.DrawsAreBelow65536 := by
  unfold Obligations.DrawsAreBelow65536
  exact fun s hvalid => ⟨_, exec_lprngDraw_of_valid s hvalid, lprngOut_lt _ _⟩

/-- A draw keeps `S` valid, so a run of draws is not refused: `n + 1` of them iterate the step (R118). -/
theorem execAll_draws (n : Nat) (s : State) (h : s.valid .S = true) :
    ∃ t, execAll (List.replicate (n + 1) .lprngDraw) s = .next t ∧
      t.regRes = lprngOut Config.params ((lprngNext Config.params)^[n + 1] s.regS) ∧
      t.regS = (lprngNext Config.params)^[n + 1] s.regS := by
  induction n generalizing s with
  | zero =>
    simp only [zero_add, List.replicate, execAll, exec_lprngDraw_of_valid s h]
    exact ⟨_, rfl, rfl, rfl⟩
  | succ n ih =>
    rw [List.replicate_succ, execAll, exec_lprngDraw_of_valid s h]
    refine ih _ ?_
    simpa [State.valid, Item.bit] using h

/-- Settles O14: seeding makes `S` the argument, valid, and the draws iterate from there. -/
theorem nthDrawDependsOnSeedAlone : Obligations.NthDrawDependsOnSeedAlone := by
  unfold Obligations.NthDrawDependsOnSeedAlone
  intro s n hvalid
  rw [execAll, exec_lprngNew_of_valid s hvalid]
  exact execAll_draws n ((s.writeS s.regArg).setCst .ok) (by simp)

end Sys2Proof.Machine
end

section
/-! PROOFS. The ends of a section run as whole next states (spec/45_orchestrator.md R251 to R262): a run ends in `Done`
or in `Failed`, from the state it began in or from that state with the leading record's block loaded and its key spent. -/

namespace Sys2Proof.Machine

/-! ### Masks of `VLD` -/

/-- Clearing two sets of bits one after the other clears their union. -/
theorem and_not_and_not {n : Nat} (v a b : BitVec n) : v &&& ~~~a &&& ~~~b = v &&& ~~~(a ||| b) := by
  rw [BitVec.and_assoc, BitVec.not_or]

/-- A clearing whose bits are later set or cleared leaves no trace. -/
theorem and_not_or_and_not {n : Nat} (v m x y : BitVec n) (h : m &&& ~~~(x ||| y) = 0#n) :
    (v &&& ~~~m ||| x) &&& ~~~y = (v ||| x) &&& ~~~y := by
  ext i hi
  have hbit : (m &&& ~~~(x ||| y))[i] = (0#n)[i] := congrArg (·[i]) h
  simp only [BitVec.getElem_and, BitVec.getElem_not, BitVec.getElem_or, BitVec.getElem_zero] at hbit ⊢
  revert hbit
  cases v[i] <;> cases m[i] <;> cases x[i] <;> cases y[i] <;> decide

/-- Setting and clearing bits twice is setting and clearing them once: what the first clears is cleared unless the
second sets it, and what both set is set where it is not cleared. -/
theorem set_clear_set_clear {n : Nat} (v x y x' y' : BitVec n) {x'' y'' : BitVec n} (hy : y &&& ~~~x' ||| y' = y'')
    (hx : (x ||| x') &&& ~~~y'' = x'' &&& ~~~y'') :
    ((v ||| x) &&& ~~~y ||| x') &&& ~~~y' = (v ||| x'') &&& ~~~y'' := by
  subst hy
  ext i hi
  have hbit : ((x ||| x') &&& ~~~(y &&& ~~~x' ||| y'))[i] = (x'' &&& ~~~(y &&& ~~~x' ||| y'))[i] := congrArg (·[i]) hx
  simp only [BitVec.getElem_and, BitVec.getElem_not, BitVec.getElem_or] at hbit ⊢
  revert hbit
  cases v[i] <;> cases x[i] <;> cases y[i] <;> cases x'[i] <;> cases y'[i] <;> cases x''[i] <;> decide

/-! ### The two ends of a run -/

/-- A run that ends in `Failed`: the error entry of R300 with the cursor and the contents of `PLAIN` as reached. -/
def State.runFailed (s : State) (mode : BitVec 2) (e : BitVec 6) (icur : Nat) (plain : List Byte) : State :=
  { s with
    mode := mode, fsm := 6#3, err := e, icur := icur, plain := plain, vld := s.vld &&& ~~~0x03C#9, cst := 0#2 }

/-- A run that ends in `Done` with the section `out` (R260, R261). -/
def State.runDone (s : State) (mode : BitVec 2) (icur : Nat) (plain : List Byte) (out : List Paragraph) : State :=
  { s with
    mode := mode, fsm := 5#3, err := 0#6, icur := icur, plain := plain, out := out,
    vld := (s.vld ||| 0x020#9) &&& ~~~0x018#9, cst := 0#2 }

/-- The leading record's block in `OB`, its key derived and spent (R255, R256, R172). -/
def State.keySpent (P : Params) (ob : Vector Byte 256) (s : State) : State :=
  { s with
    regS := deriveLastS P ob, ob := ob, key := deriveKey P ob, vld := (s.vld ||| 0x002#9) &&& ~~~0x005#9 }

/-- After `StreamRest` the cursor is at the end (R173). -/
theorem State.icur_add_streamAvail {s : State} (h : s.icur ≤ s.inp.length) : s.icur + s.streamAvail = s.inp.length := by
  simp only [State.streamAvail]
  omega

/-- The validity bits of a run that fails with the key at hand (R256, R300). -/
theorem keyedState_vld_failed (P : Params) (comp : Bool) (ob : Vector Byte 256) (s : State) :
    (keyedState P comp ob s).vld &&& ~~~0x03C#9 = (s.keySpent P ob).vld &&& ~~~0x03C#9 := by
  simp only [keyedState, State.keySpent, and_not_and_not]
  ext i hi
  simp only [BitVec.getElem_and, BitVec.getElem_not, BitVec.getElem_or]
  interval_cases i <;> simp

/-- The state in which the plaintext of a distributed section is at hand (R163, R172). -/
theorem keyedState_invalidate_eq (P : Params) (comp : Bool) (ob : Vector Byte 256) (s : State) :
    (keyedState P comp ob s).invalidate .KEY =
      { s.keySpent P ob with
        mode := modeBits true comp, fsm := 2#3, err := 0#6, icur := s.inp.length,
        vld := (s.keySpent P ob).vld &&& ~~~0x030#9 } := by
  have hvld : (s.vld ||| 0x006#9) &&& ~~~0x031#9 &&& ~~~Item.KEY.mask =
      (s.vld ||| 0x002#9) &&& ~~~0x005#9 &&& ~~~0x030#9 := by
    simp only [and_not_and_not]
    ext i hi
    simp only [BitVec.getElem_and, BitVec.getElem_not, BitVec.getElem_or]
    interval_cases i <;> simp [Item.mask, Item.bit]
  simp only [State.invalidate, keyedState, State.keySpent, hvld]

/-! ### From the plaintext on -/

section
variable {P : Params} {comp : Bool} {pt plain : List Byte} {u : State}

/-- A plaintext that does not inflate ends the run (R259). -/
theorem endResult_of_not_inflated {e : Stage × ErrKind} (hrec : recordStreamOf P comp pt = .error e) :
    endResult P comp pt u = { u with fsm := 6#3, err := 0x1C#6, vld := u.vld &&& ~~~0x03C#9, cst := 0#2 } := by
  simp only [endResult, hrec]

/-- A plain stream that does not split into whole records ends the run (R260). -/
theorem endResult_of_not_assembled (hrec : recordStreamOf P comp pt = .ok plain)
    (hasm : assemble P u.ver plain = none) :
    endResult P comp pt u =
      { u with fsm := 6#3, err := 0x22#6, plain := plain, vld := u.vld &&& ~~~0x03C#9, cst := 0#2 } := by
  simp only [endResult, hrec, hasm]

/-- A record stream ends the run with its section (R260, R261). -/
theorem endResult_of_assembled {out : List Paragraph} (hrec : recordStreamOf P comp pt = .ok plain)
    (hasm : assemble P u.ver plain = some out) :
    endResult P comp pt u =
      { u with
        fsm := 5#3, plain := plain, out := out, vld := (u.vld ||| 0x020#9) &&& ~~~0x018#9, cst := 0#2 } := by
  simp only [endResult, hrec, hasm]

end

/-! ### A plain run -/

section
variable {P : Params} {comp : Bool} {plain : List Byte} {s : State}

theorem secRun_plain_of_not_inflated {e : Stage × ErrKind}
    (hrec : recordStreamOf P comp (s.inp.drop s.icur) = .error e) :
    secRun P false comp s = s.runFailed (modeBits false comp) 0x1C#6 (s.icur + s.streamAvail) s.plain := by
  rw [secRun_plain, endResult_of_not_inflated hrec, secEntry_eq]
  simp only [State.streamAdvance, State.setIcur, and_not_and_not]
  rfl

theorem secRun_plain_of_not_assembled (hrec : recordStreamOf P comp (s.inp.drop s.icur) = .ok plain)
    (hasm : assemble P s.ver plain = none) :
    secRun P false comp s = s.runFailed (modeBits false comp) 0x22#6 (s.icur + s.streamAvail) plain := by
  rw [secRun_plain, endResult_of_not_assembled (u := (secEntry false comp s).streamAdvance s.streamAvail) hrec hasm,
    secEntry_eq]
  simp only [State.streamAdvance, State.setIcur, and_not_and_not]
  rfl

theorem secRun_plain_of_assembled {out : List Paragraph}
    (hrec : recordStreamOf P comp (s.inp.drop s.icur) = .ok plain) (hasm : assemble P s.ver plain = some out) :
    secRun P false comp s = s.runDone (modeBits false comp) (s.icur + s.streamAvail) plain out := by
  rw [secRun_plain, endResult_of_assembled (u := (secEntry false comp s).streamAdvance s.streamAvail) hrec hasm,
    secEntry_eq]
  simp only [State.streamAdvance, State.setIcur, and_not_or_and_not _ 0x030#9 0x020#9 0x018#9 (by decide)]
  rfl

end

/-! ### A distributed run -/

/-- No whole leading header: the run ends with the cursor unmoved (R253). -/
theorem secRun_dist_of_no_header {P : Params} {s : State} (comp : Bool) (hf : frameAt P (s.inp.drop s.icur) = none) :
    secRun P true comp s = s.runFailed (modeBits true comp) 0x02#6 s.icur s.plain := by
  have hd : (secEntry true comp s).dist = true := State.dist_setMode_modeBits s true comp
  have he : frameAt P ((secEntry true comp s).inp.drop (secEntry true comp s).icur) = none := by
    simpa [secEntry_eq] using hf
  have hstart := errorEntry_start comp .truncatedStream 0 s
  rw [errCode_truncatedStart] at hstart
  rw [secRun, orchRun, orchStep_start (by simp [secEntry]), hd, if_pos rfl, startDistributed, he]
  exact hstart

section
variable {P : Params} {s : State} {h : Header}

/-- A header is delivered only from within the stream. -/
theorem icur_le_of_frameAt (hf : frameAt P (s.inp.drop s.icur) = some h) : s.icur + h.hlen ≤ s.inp.length := by
  have hle := frameAt_hlen_le hf
  have hpos := h.hlen_pos
  rw [List.length_drop] at hle
  omega

theorem secRun_dist_of_header (comp : Bool) (hf : frameAt P (s.inp.drop s.icur) = some h) :
    secRun P true comp s = distResult P comp s :=
  secRun_dist P comp s (Nat.le_of_add_right_le (icur_le_of_frameAt hf))

/-- A leading record of another tag or size (R254). -/
theorem secRun_dist_of_malformed (comp : Bool) (hf : frameAt P (s.inp.drop s.icur) = some h)
    (hbad : h.tagId ≠ P.tagDistDocData ∨ h.size ≠ 256) :
    secRun P true comp s = s.runFailed (modeBits true comp) 0x01#6 (s.icur + h.hlen) s.plain := by
  rw [secRun_dist_of_header comp hf]
  simp only [distResult, hf]
  rw [if_neg (by tauto)]
  rfl

/-- A leading record whose payload is cut short (R255). -/
theorem secRun_dist_of_cut_payload (comp : Bool) (hf : frameAt P (s.inp.drop s.icur) = some h)
    (htag : h.tagId = P.tagDistDocData) (hsize : h.size = 256)
    (hcut : (s.inp.drop s.icur).length < h.hlen + 256) :
    secRun P true comp s = s.runFailed (modeBits true comp) 0x02#6 (s.icur + h.hlen) s.plain := by
  rw [secRun_dist_of_header comp hf]
  simp only [distResult, hf]
  rw [if_pos ⟨htag, hsize⟩, if_pos hcut]
  rfl

/-- The payload of the leading record, as it goes into `OB` (R255). -/
def leadingBlock (h : Header) (rest : List Byte) : Vector Byte 256 := toBuffer 256 ((rest.drop h.hlen).take 256)

/-- The plaintext of a distributed stream whose leading record is accepted (R256, R257). -/
def distPlaintext (P : Params) (h : Header) (rest : List Byte) : List Byte :=
  ecbDecrypt P (deriveKey P (leadingBlock h rest)) (rest.drop (h.hlen + 256))

/-- The leading record is accepted: its tag and size are right and its payload is all there (R253 to R255). -/
structure Accepted (P : Params) (h : Header) (rest : List Byte) : Prop where
  framed : frameAt P rest = some h
  tag : h.tagId = P.tagDistDocData
  size : h.size = 256
  payload : h.hlen + 256 ≤ rest.length

variable (hacc : Accepted P h (s.inp.drop s.icur))
include hacc

/-- The end of a run whose leading record is accepted: the alignment check, then the plaintext's end (R257). -/
theorem secRun_dist_of_accepted (comp : Bool) :
    secRun P true comp s =
      if ((s.inp.drop s.icur).drop (h.hlen + 256)).length % 16 = 0 then
        endResult P comp (distPlaintext P h (s.inp.drop s.icur))
          ((keyedState P comp (leadingBlock h (s.inp.drop s.icur)) s).invalidate .KEY)
      else
        { keyedState P comp (leadingBlock h (s.inp.drop s.icur)) s with
          fsm := 6#3, err := 0x13#6,
          vld := (keyedState P comp (leadingBlock h (s.inp.drop s.icur)) s).vld &&& ~~~0x03C#9, cst := 0#2 } := by
  obtain ⟨hf, htag, hsize, hlen⟩ := hacc
  rw [secRun_dist_of_header comp hf]
  simp only [distResult, hf]
  rw [if_pos ⟨htag, hsize⟩, if_neg (Nat.not_lt.mpr hlen)]
  rfl

/-- A ciphertext that is not a whole number of blocks (R162, R257). -/
theorem secRun_dist_of_misaligned (comp : Bool)
    (hmis : ((s.inp.drop s.icur).drop (h.hlen + 256)).length % 16 ≠ 0) :
    secRun P true comp s = (s.keySpent P (leadingBlock h (s.inp.drop s.icur))).runFailed
      (modeBits true comp) 0x13#6 s.inp.length s.plain := by
  rw [secRun_dist_of_accepted hacc, if_neg hmis, State.runFailed, State.keySpent, keyedState_vld_failed]
  rfl

section
variable {comp : Bool} {plain : List Byte}
  (haligned : ((s.inp.drop s.icur).drop (h.hlen + 256)).length % 16 = 0)
include haligned

/-- A plaintext that does not inflate (R259). -/
theorem secRun_dist_of_not_inflated {e : Stage × ErrKind}
    (hrec : recordStreamOf P comp (distPlaintext P h (s.inp.drop s.icur)) = .error e) :
    secRun P true comp s = (s.keySpent P (leadingBlock h (s.inp.drop s.icur))).runFailed
      (modeBits true comp) 0x1C#6 s.inp.length s.plain := by
  rw [secRun_dist_of_accepted hacc, if_pos haligned, endResult_of_not_inflated hrec, keyedState_invalidate_eq]
  simp only [and_not_and_not]
  rfl

/-- A plain stream that does not split into whole records (R260). -/
theorem secRun_dist_of_not_assembled
    (hrec : recordStreamOf P comp (distPlaintext P h (s.inp.drop s.icur)) = .ok plain)
    (hasm : assemble P s.ver plain = none) :
    secRun P true comp s = (s.keySpent P (leadingBlock h (s.inp.drop s.icur))).runFailed
      (modeBits true comp) 0x22#6 s.inp.length plain := by
  rw [secRun_dist_of_accepted hacc, if_pos haligned,
    endResult_of_not_assembled (u := (keyedState P comp _ s).invalidate .KEY) hrec hasm, keyedState_invalidate_eq]
  simp only [and_not_and_not]
  rfl

/-- A record stream (R260, R261). -/
theorem secRun_dist_of_assembled {out : List Paragraph}
    (hrec : recordStreamOf P comp (distPlaintext P h (s.inp.drop s.icur)) = .ok plain)
    (hasm : assemble P s.ver plain = some out) :
    secRun P true comp s = (s.keySpent P (leadingBlock h (s.inp.drop s.icur))).runDone
      (modeBits true comp) s.inp.length plain out := by
  rw [secRun_dist_of_accepted hacc, if_pos haligned,
    endResult_of_assembled (u := (keyedState P comp _ s).invalidate .KEY) hrec hasm, keyedState_invalidate_eq]
  simp only [and_not_or_and_not _ 0x030#9 0x020#9 0x018#9 (by decide)]
  rfl

end

end

end Sys2Proof.Machine
end

section
/-! PROOFS. The section runs whole (spec/45_orchestrator.md R253 to R266): each outcome of a plain and of a distributed
run as a next state. -/

namespace Sys2Proof.Machine

/-- A SEC.RUN needs `IN` and `VER` (R296). -/
theorem State.operandsValid_secInstr (dist comp : Bool) (s : State) :
    s.operandsValid (secInstr dist comp) = (s.valid .IN && s.valid .VER) := by
  cases dist <;> cases comp <;> simp [State.operandsValid, secInstr, requiredItems]

/-- A SEC.RUN that is refused writes 2 to `CST` and nothing else (R296). -/
theorem exec_secInstr_of_invalid (dist comp : Bool) (s : State) (h : s.valid .IN = false ∨ s.valid .VER = false) :
    exec (secInstr dist comp) s = .next { s with cst := 2#2 } := by
  rw [← Bool.and_eq_false_iff, ← s.operandsValid_secInstr dist comp] at h
  rw [exec_of_operandsInvalid _ _ h, State.refuse_useBeforeWrite_eq]

/-- `MODE` of a distributed run (R26). -/
theorem modeBits_true (comp : Bool) : modeBits true comp = if comp then 3#2 else 2#2 := by
  cases comp <;> rfl

/-- The record stream is at hand when the plaintext inflates to it or is it (R258, R259). -/
theorem recordStreamOf_eq_ok_iff {P : Params} {comp : Bool} {pt plain : List Byte} :
    recordStreamOf P comp pt = .ok plain ↔
      if comp then inflate P.inflateIncomplete pt = some plain else plain = pt := by
  cases comp with
  | false => simp [recordStreamOf, eq_comm]
  | true => cases hinf : inflate P.inflateIncomplete pt <;> simp [recordStreamOf, hinf]

/-- A plaintext that does not inflate is the one error of this stage (R259). -/
theorem recordStreamOf_of_inflate_none {P : Params} {pt : List Byte} (h : inflate P.inflateIncomplete pt = none) :
    recordStreamOf P true pt = .error (.decompress, .decompressionFailure) := by
  simp [recordStreamOf, h]

/-- Whatever error this stage raises, it is that one, and only with `COMP` (R259). -/
theorem recordStreamOf_error {P : Params} {comp : Bool} {pt : List Byte} {e : Stage × ErrKind}
    (h : recordStreamOf P comp pt = .error e) : comp = true ∧ e = (.decompress, .decompressionFailure) := by
  cases comp with
  | false => simp [recordStreamOf] at h
  | true => cases hinf : inflate P.inflateIncomplete pt <;> simp_all [recordStreamOf]

/-- A failed run whose leading block was loaded, whole (R256, R300). -/
theorem State.keySpent_runFailed_eq (P : Params) (ob : Vector Byte 256) (s : State) (mode : BitVec 2) (e : BitVec 6)
    (icur : Nat) (plain : List Byte) :
    (s.keySpent P ob).runFailed mode e icur plain =
      { s with
        regS := deriveLastS P ob, mode := mode, fsm := 6#3, err := e, icur := icur, ob := ob, key := deriveKey P ob,
        plain := plain, vld := (s.vld ||| 0x002#9) &&& ~~~0x03D#9, cst := 0#2 } := by
  simp only [State.runFailed, State.keySpent, and_not_and_not]
  rfl

/-- A completed run whose leading block was loaded, whole (R256, R261). -/
theorem State.keySpent_runDone_eq (P : Params) (ob : Vector Byte 256) (s : State) (mode : BitVec 2) (icur : Nat)
    (plain : List Byte) (out : List Paragraph) :
    (s.keySpent P ob).runDone mode icur plain out =
      { s with
        regS := deriveLastS P ob, mode := mode, fsm := 5#3, err := 0#6, icur := icur, ob := ob, key := deriveKey P ob,
        plain := plain, out := out, vld := (s.vld ||| 0x022#9) &&& ~~~0x01D#9, cst := 0#2 } := by
  have hvld : ((s.vld ||| 0x002#9) &&& ~~~0x005#9 ||| 0x020#9) &&& ~~~0x018#9 =
      (s.vld ||| 0x022#9) &&& ~~~0x01D#9 :=
    set_clear_set_clear _ _ _ _ _ (by decide) (by decide)
  simp only [State.runDone, State.keySpent, hvld]

/-! ### Plain runs -/

/-- Settles O41: without `COMP` the remainder is the record stream, and it assembles exactly when it splits. -/
theorem plainSectionRunCompletes : Obligations.PlainSectionRunCompletes := by
  unfold Obligations.PlainSectionRunCompletes
  intro s
  refine ⟨by decide, exec_secInstr_of_invalid false false s, fun hin hver hcur =>
    ⟨exec_eq_commandWith _ _, fun P => ?_⟩⟩
  have hrun : commandWith P .secRunPU s = secRun P false false s := commandWith_secInstr P false false s hin hver
  have hrec : recordStreamOf P false (s.inp.drop s.icur) = .ok (s.inp.drop s.icur) := by simp [recordStreamOf]
  rw [hrun, ← State.icur_add_streamAvail hcur]
  refine ⟨fun ps hps => ?_, fun hnone => ?_⟩
  · exact secRun_plain_of_assembled hrec ((assemble_eq_some_iff ..).mpr hps)
  · exact secRun_plain_of_not_assembled hrec ((assemble_eq_none_iff ..).mpr hnone)

/-- Settles O42: with `COMP` the record stream is what the remainder inflates to. -/
theorem compressedSectionRunCompletes : Obligations.CompressedSectionRunCompletes := by
  unfold Obligations.CompressedSectionRunCompletes
  intro s
  refine ⟨by decide, exec_secInstr_of_invalid false true s, fun hin hver hcur =>
    ⟨exec_eq_commandWith _ _, fun P => ?_⟩⟩
  have hrun : commandWith P .secRunPC s = secRun P false true s := commandWith_secInstr P false true s hin hver
  rw [hrun, ← State.icur_add_streamAvail hcur]
  refine ⟨fun plain hinf => ?_, fun hinf => ?_⟩
  · have hrec : recordStreamOf P true (s.inp.drop s.icur) = .ok plain := recordStreamOf_eq_ok_iff.mpr hinf
    refine ⟨fun ps hps => ?_, fun hnone => ?_⟩
    · exact secRun_plain_of_assembled hrec ((assemble_eq_some_iff ..).mpr hps)
    · exact secRun_plain_of_not_assembled hrec ((assemble_eq_none_iff ..).mpr hnone)
  · exact secRun_plain_of_not_inflated (recordStreamOf_of_inflate_none hinf)

/-! ### Distributed runs -/

/-- Settles O43: the leading record is accepted, the ciphertext aligned, and the plain stream assembles. -/
theorem distributedSectionRunCompletes : Obligations.DistributedSectionRunCompletes := by
  unfold Obligations.DistributedSectionRunCompletes
  intro comp s hin hver hcur
  refine ⟨exec_eq_commandWith _ _, fun P h plain ps => ?_⟩
  intro rest ob ct pt hf htag hsize hlen haligned hplain hps
  rw [commandWith_secInstr P true comp s hin hver, ← modeBits_true, ← State.keySpent_runDone_eq]
  exact secRun_dist_of_assembled ⟨hf, htag, hsize, hlen⟩ haligned (recordStreamOf_eq_ok_iff.mpr hplain)
    ((assemble_eq_some_iff ..).mpr hps)

/-- Settles O46: the checks on tag and size come before the payload is looked at. -/
theorem leadingRecordCheckedFirst : Obligations.LeadingRecordCheckedFirst := by
  unfold Obligations.LeadingRecordCheckedFirst
  intro comp s hin hver
  refine ⟨exec_eq_commandWith _ _, fun P h hf hbad => ?_⟩
  rw [commandWith_secInstr P true comp s hin hver, ← modeBits_true]
  exact secRun_dist_of_malformed comp hf hbad

/-- Settles O47: no header is delivered, from no bytes in particular. -/
theorem cutLeadingHeaderTruncated : Obligations.CutLeadingHeaderTruncated := by
  unfold Obligations.CutLeadingHeaderTruncated
  intro comp s hin hver
  refine ⟨exec_eq_commandWith _ _, fun P hcut => ?_⟩
  rw [commandWith_secInstr P true comp s hin hver, ← modeBits_true]
  refine secRun_dist_of_no_header comp ?_
  obtain hf | hend := hcut
  · exact hf
  · rw [List.drop_of_length_le hend, frameAt_nil]

/-- Settles O48: the header is accepted and fewer than 256 bytes follow it. -/
theorem cutLeadingPayloadTruncated : Obligations.CutLeadingPayloadTruncated := by
  unfold Obligations.CutLeadingPayloadTruncated
  intro comp s hin hver
  refine ⟨exec_eq_commandWith _ _, fun P h hf htag hsize hcut => ?_⟩
  rw [commandWith_secInstr P true comp s hin hver, ← modeBits_true]
  exact secRun_dist_of_cut_payload comp hf htag hsize hcut

/-- Settles O49: the leading record is accepted and the rest is not whole blocks. -/
theorem misalignedDistributedRunFails : Obligations.MisalignedDistributedRunFails := by
  unfold Obligations.MisalignedDistributedRunFails
  intro comp s hin hver
  refine ⟨exec_eq_commandWith _ _, fun P h => ?_⟩
  intro rest ob hf htag hsize hlen hmis
  rw [commandWith_secInstr P true comp s hin hver, ← modeBits_true]
  exact (secRun_dist_of_misaligned ⟨hf, htag, hsize, hlen⟩ comp hmis).trans (State.keySpent_runFailed_eq ..)

/-- Settles O60: past decryption the run fails in `Decompress` or in `Assemble`. -/
theorem distributedRunFailsAfterDecryption : Obligations.DistributedRunFailsAfterDecryption := by
  unfold Obligations.DistributedRunFailsAfterDecryption
  intro comp s hin hver
  refine ⟨exec_eq_commandWith _ _, fun P h => ?_⟩
  intro rest ob ct pt failed hf htag hsize hlen haligned
  have hfailed (e : BitVec 6) (plain : List Byte) :
      (s.keySpent P ob).runFailed (modeBits true comp) e s.inp.length plain = failed e plain := by
    rw [State.keySpent_runFailed_eq, modeBits_true]
  rw [commandWith_secInstr P true comp s hin hver]
  refine ⟨fun hcomp hinf => ?_, fun plain hplain hnone => ?_⟩
  · subst hcomp
    rw [← hfailed]
    exact secRun_dist_of_not_inflated ⟨hf, htag, hsize, hlen⟩ haligned (recordStreamOf_of_inflate_none hinf)
  · rw [← hfailed]
    exact secRun_dist_of_not_assembled ⟨hf, htag, hsize, hlen⟩ haligned (recordStreamOf_eq_ok_iff.mpr hplain)
      ((assemble_eq_none_iff ..).mpr hnone)

end Sys2Proof.Machine
end

section
/-! PROOFS. The state machine agrees with the big-step reading of a section run (spec/45_orchestrator.md R267): the
section function decides how a run ends, and on which state. -/

namespace Sys2Proof.Machine

/-- The state whose fields a run's end keeps: the state before the run, with the leading block loaded and its key spent
once a distributed run is past `Start`. -/
def RunBase (P : Params) (pastStart : Bool) (s u : State) : Prop :=
  if pastStart then ∃ ob, u = s.keySpent P ob else u = s

/-- A delivered header lies within what is left of the stream. -/
theorem hlen_le_streamAvail {P : Params} {s : State} {h : Header} (hf : frameAt P (s.inp.drop s.icur) = some h) :
    h.hlen ≤ s.streamAvail := by
  have hle := frameAt_hlen_le hf
  rwa [List.length_drop] at hle

/-- Either a check of the leading record fails, the first to fail, or the record is accepted (R253 to R255). -/
theorem leadingRecord_cases (P : Params) (rest : List Byte) :
    frameAt P rest = none ∨ ∃ h, frameAt P rest = some h ∧
      ((h.tagId ≠ P.tagDistDocData ∨ h.size ≠ 256) ∨
        (h.tagId = P.tagDistDocData ∧ h.size = 256 ∧ rest.length < h.hlen + 256) ∨ Accepted P h rest) := by
  cases hf : frameAt P rest with
  | none => exact .inl rfl
  | some h =>
    refine .inr ⟨h, rfl, ?_⟩
    by_cases hbad : h.tagId ≠ P.tagDistDocData ∨ h.size ≠ 256
    · exact .inl hbad
    · simp only [not_or, not_not] at hbad
      obtain ⟨htag, hsize⟩ := hbad
      by_cases hcut : rest.length < h.hlen + 256
      · exact .inr (.inl ⟨htag, hsize, hcut⟩)
      · exact .inr (.inr ⟨hf, htag, hsize, Nat.le_of_not_lt hcut⟩)

section
variable {P : Params} {rest : List Byte} {h : Header}

theorem leadingRecord_of_no_header (hf : frameAt P rest = none) :
    leadingRecord P rest = .error (.start, .truncatedStream) := by
  simp only [leadingRecord, hf]

theorem leadingRecord_of_malformed (hf : frameAt P rest = some h) (hbad : h.tagId ≠ P.tagDistDocData ∨ h.size ≠ 256) :
    leadingRecord P rest = .error (.start, .malformedRecord) := by
  simp only [leadingRecord, hf]
  by_cases htag : h.tagId = P.tagDistDocData
  · rw [if_neg (not_not.mpr htag), if_pos (hbad.resolve_left (not_not.mpr htag))]
  · rw [if_pos htag]

theorem leadingRecord_of_cut_payload (hf : frameAt P rest = some h) (htag : h.tagId = P.tagDistDocData)
    (hsize : h.size = 256) (hcut : rest.length < h.hlen + 256) :
    leadingRecord P rest = .error (.start, .truncatedStream) := by
  simp only [leadingRecord, hf]
  rw [if_neg (not_not.mpr htag), if_neg (not_not.mpr hsize), if_pos hcut]

theorem leadingRecord_of_accepted (hacc : Accepted P h rest) :
    leadingRecord P rest = .ok (leadingBlock h rest, rest.drop (h.hlen + 256)) := by
  obtain ⟨hf, htag, hsize, hlen⟩ := hacc
  simp only [leadingRecord, hf]
  rw [if_neg (not_not.mpr htag), if_neg (not_not.mpr hsize), if_neg (Nat.not_lt.mpr hlen)]
  rfl

theorem plaintextOf_of_leadingRecord_error {e : Stage × ErrKind} (hlead : leadingRecord P rest = .error e) :
    plaintextOf P true rest = .error e := by
  simp [plaintextOf, hlead]

theorem plaintextOf_of_misaligned (hacc : Accepted P h rest) (hmis : (rest.drop (h.hlen + 256)).length % 16 ≠ 0) :
    plaintextOf P true rest = .error (.decrypt, .decryptionFailure) := by
  simp only [plaintextOf, leadingRecord_of_accepted hacc, if_true]
  rw [if_pos hmis]

theorem plaintextOf_of_aligned (hacc : Accepted P h rest) (haligned : (rest.drop (h.hlen + 256)).length % 16 = 0) :
    plaintextOf P true rest = .ok (distPlaintext P h rest) := by
  simp only [plaintextOf, leadingRecord_of_accepted hacc, if_true]
  rw [if_neg (not_not.mpr haligned)]
  rfl

end

/-- The section function from the plaintext on, by the way it ends (R259, R260). -/
theorem sectionOf_of_plaintext {P : Params} {dist comp : Bool} {ver : Version} {rest pt : List Byte}
    (hpt : plaintextOf P dist rest = .ok pt) :
    (comp = true ∧ recordStreamOf P comp pt = .error (.decompress, .decompressionFailure) ∧
        sectionOf P dist comp ver rest = .error (.decompress, .decompressionFailure)) ∨
      ∃ plain, recordStreamOf P comp pt = .ok plain ∧
        ((assemble P ver plain = none ∧ sectionOf P dist comp ver rest = .error (.assemble, .truncatedStream)) ∨
          ∃ ps, assemble P ver plain = some ps ∧ sectionOf P dist comp ver rest = .ok ps) := by
  cases hrec : recordStreamOf P comp pt with
  | error e =>
    obtain ⟨hcomp, rfl⟩ := recordStreamOf_error hrec
    exact .inl ⟨hcomp, rfl, by simp only [sectionOf, hpt, hrec]⟩
  | ok plain =>
    refine .inr ⟨plain, rfl, ?_⟩
    cases hasm : assemble P ver plain with
    | none => exact .inl ⟨rfl, by simp only [sectionOf, hpt, hrec, hasm]⟩
    | some ps => exact .inr ⟨ps, rfl, by simp only [sectionOf, hpt, hrec, hasm]⟩

/-- A run is built on one state and ends as the section function says: in `Done` with its section, or in `Failed` with
its error, which is one of those R281 allows the command; the cursor stays inside the stream (R267). -/
def RunEnds (P : Params) (dist comp : Bool) (s : State) : Prop :=
  ∃ u n plain, (s.icur ≤ s.inp.length → n ≤ s.inp.length) ∧
    ((∃ ps, sectionOf P dist comp s.ver (s.inp.drop s.icur) = .ok ps ∧ RunBase P dist s u ∧
        secRun P dist comp s = u.runDone (modeBits dist comp) n plain ps) ∨
      ∃ g k, sectionOf P dist comp s.ver (s.inp.drop s.icur) = .error (g, k) ∧
        errCode k g ∈ possibleErr 0#6 (secInstr dist comp) ∧ RunBase P (dist && decide (g ≠ .start)) s u ∧
        secRun P dist comp s = u.runFailed (modeBits dist comp) (errCode k g) n plain)

/-- A plain run ends as the section function says (R258). -/
theorem runEnds_plain (P : Params) (comp : Bool) (s : State) : RunEnds P false comp s := by
  have hpt : plaintextOf P false (s.inp.drop s.icur) = .ok (s.inp.drop s.icur) := by simp [plaintextOf]
  have hcur (h : s.icur ≤ s.inp.length) : s.icur + s.streamAvail ≤ s.inp.length :=
    (State.icur_add_streamAvail h).le
  obtain ⟨hcomp, hrec, hsec⟩ | ⟨plain, hrec, ⟨hasm, hsec⟩ | ⟨ps, hasm, hsec⟩⟩ := sectionOf_of_plaintext
    (ver := s.ver) hpt
  · have hrun := secRun_plain_of_not_inflated hrec
    rw [← errCode_decompress] at hrun
    exact ⟨s, _, _, hcur, .inr ⟨_, _, hsec, by subst hcomp; decide, rfl, hrun⟩⟩
  · have hrun := secRun_plain_of_not_assembled hrec hasm
    rw [← errCode_truncatedAssemble] at hrun
    exact ⟨s, _, _, hcur, .inr ⟨_, _, hsec, by cases comp <;> decide, rfl, hrun⟩⟩
  · exact ⟨s, _, _, hcur, .inl ⟨_, hsec, rfl, secRun_plain_of_assembled hrec hasm⟩⟩

/-- A distributed run that fails on its leading record fails as the section function says (R253 to R255). -/
theorem runEnds_of_leadingRecord_error {P : Params} (comp : Bool) {s : State} {k : ErrKind} {n : Nat}
    (hlead : leadingRecord P (s.inp.drop s.icur) = .error (.start, k)) (hn : n ≤ s.streamAvail)
    (herr : errCode k .start ∈ possibleErr 0#6 (secInstr true comp))
    (hrun : secRun P true comp s = s.runFailed (modeBits true comp) (errCode k .start) (s.icur + n) s.plain) :
    RunEnds P true comp s := by
  have hsec : sectionOf P true comp s.ver (s.inp.drop s.icur) = .error (.start, k) := by
    simp only [sectionOf, plaintextOf_of_leadingRecord_error hlead]
  refine ⟨s, _, _, fun hcur => ?_, .inr ⟨_, _, hsec, herr, rfl, hrun⟩⟩
  rw [← State.icur_add_streamAvail hcur]
  exact Nat.add_le_add_left hn _

/-- A distributed run whose leading record is accepted ends as the section function says (R256 to R261). -/
theorem runEnds_of_accepted {P : Params} (comp : Bool) {s : State} {h : Header}
    (hacc : Accepted P h (s.inp.drop s.icur)) : RunEnds P true comp s := by
  by_cases haligned : ((s.inp.drop s.icur).drop (h.hlen + 256)).length % 16 = 0
  · obtain ⟨hcomp, hrec, hsec⟩ | ⟨plain, hrec, ⟨hasm, hsec⟩ | ⟨ps, hasm, hsec⟩⟩ :=
      sectionOf_of_plaintext (ver := s.ver) (plaintextOf_of_aligned hacc haligned)
    · have hrun := secRun_dist_of_not_inflated hacc haligned hrec
      rw [← errCode_decompress] at hrun
      exact ⟨_, _, _, fun _ => le_rfl, .inr ⟨_, _, hsec, by subst hcomp; decide, ⟨_, rfl⟩, hrun⟩⟩
    · have hrun := secRun_dist_of_not_assembled hacc haligned hrec hasm
      rw [← errCode_truncatedAssemble] at hrun
      exact ⟨_, _, _, fun _ => le_rfl, .inr ⟨_, _, hsec, by cases comp <;> decide, ⟨_, rfl⟩, hrun⟩⟩
    · exact ⟨_, _, _, fun _ => le_rfl, .inl ⟨_, hsec, ⟨_, rfl⟩, secRun_dist_of_assembled hacc haligned hrec hasm⟩⟩
  · have hsec : sectionOf P true comp s.ver (s.inp.drop s.icur) = .error (.decrypt, .decryptionFailure) := by
      simp only [sectionOf, plaintextOf_of_misaligned hacc haligned]
    have hrun := secRun_dist_of_misaligned hacc comp haligned
    rw [← errCode_decrypt] at hrun
    exact ⟨_, _, _, fun _ => le_rfl, .inr ⟨_, _, hsec, by cases comp <;> decide, ⟨_, rfl⟩, hrun⟩⟩

/-- Every run ends as the section function says (R267). -/
theorem runEnds (P : Params) (dist comp : Bool) (s : State) : RunEnds P dist comp s := by
  cases dist with
  | false => exact runEnds_plain P comp s
  | true =>
    obtain hf | ⟨h, hf, hbad | ⟨htag, hsize, hcut⟩ | hacc⟩ := leadingRecord_cases P (s.inp.drop s.icur)
    · refine runEnds_of_leadingRecord_error comp (n := 0) (leadingRecord_of_no_header hf) (Nat.zero_le _) ?_ ?_
      · cases comp <;> decide
      · rw [errCode_truncatedStart]
        exact secRun_dist_of_no_header comp hf
    · refine runEnds_of_leadingRecord_error comp (leadingRecord_of_malformed hf hbad) (hlen_le_streamAvail hf) ?_ ?_
      · cases comp <;> decide
      · rw [errCode_malformed]
        exact secRun_dist_of_malformed comp hf hbad
    · refine runEnds_of_leadingRecord_error comp (leadingRecord_of_cut_payload hf htag hsize hcut)
        (hlen_le_streamAvail hf) ?_ ?_
      · cases comp <;> decide
      · rw [errCode_truncatedStart]
        exact secRun_dist_of_cut_payload comp hf htag hsize hcut
    · exact runEnds_of_accepted comp hacc

end Sys2Proof.Machine
end

section
/-! PROOFS. The fields of a run's end, and what follows from them: the refinement of the section function (R267), the
equivalences with the unit commands (spec/30_encoding.md R93), the round trip (R268), the transition table (R250). -/

namespace Sys2Proof.Machine

@[simp] theorem State.runDone_valid (s : State) (m : BitVec 2) (n : Nat) (plain : List Byte) (out : List Paragraph)
    (a : Item) : (s.runDone m n plain out).valid a =
      ((s.valid a || decide (a = .OUT)) && !decide (a = .IN) && !decide (a = .PLAIN)) := by
  cases a <;> simp [State.runDone, State.valid, Item.bit]

@[simp] theorem State.runFailed_valid (s : State) (m : BitVec 2) (e : BitVec 6) (n : Nat) (plain : List Byte)
    (a : Item) : (s.runFailed m e n plain).valid a =
      (s.valid a && !decide (a = .OUT) && !decide (a = .PLAIN) && !decide (a = .IN) && !decide (a = .KEY)) := by
  cases a <;> simp [State.runFailed, State.valid, Item.bit]

@[simp] theorem State.keySpent_valid (P : Params) (ob : Vector Byte 256) (s : State) (a : Item) :
    (s.keySpent P ob).valid a = ((s.valid a || decide (a = .OB)) && !decide (a = .S) && !decide (a = .KEY)) := by
  cases a <;> simp [State.keySpent, State.valid, Item.bit]

/-- The validity bits of the state a run's end is built on: past `Start`, `OB` is loaded and `S` and `KEY` are spent. -/
theorem RunBase.valid {P : Params} {past : Bool} {s u : State} (h : RunBase P past s u) (a : Item) :
    u.valid a =
      ((s.valid a || (past && decide (a = .OB))) && !(past && decide (a = .S)) && !(past && decide (a = .KEY))) := by
  cases past with
  | false => obtain rfl : u = s := h; simp
  | true => obtain ⟨ob, rfl⟩ : ∃ ob, u = s.keySpent P ob := h; simp

/-- The contents of `ERR` as a number (R27). -/
theorem errCode_toNat (k : ErrKind) (g : Stage) : (errCode k g).toNat = 8 * g.code.toNat + k.code.toNat := by
  cases k <;> cases g <;> rfl

/-- `MODE` as a number (R26). -/
theorem modeBits_eq_ofNat (f1 f0 : Bool) : modeBits f1 f0 = BitVec.ofNat 2 (2 * f1.toNat + f0.toNat) := by
  cases f1 <;> cases f0 <;> rfl

/-- Settles O44: the run ends as the section function says, and the fields and bits are those of its end. -/
theorem sectionRunRefinesSectionFunction : Obligations.SectionRunRefinesSectionFunction := by
  unfold Obligations.SectionRunRefinesSectionFunction
  intro dist comp s hin hver _
  refine ⟨_, exec_eq_commandWith _ _, ?_⟩
  rw [commandWith_secInstr _ dist comp s hin hver, ← modeBits_eq_ofNat]
  obtain ⟨u, n, plain, -, ⟨ps, hsec, hu, hrun⟩ | ⟨g, k, hsec, -, hu, hrun⟩⟩ := runEnds Config.params dist comp s
  · rw [hrun, hsec]
    refine ⟨rfl, rfl, ?_, ?_, nofun⟩
    · simp [hu.valid, hver]
    · rintro ps' ⟨⟩
      refine ⟨rfl, rfl, rfl, ?_⟩
      simp [hu.valid]
  · rw [hrun, hsec]
    refine ⟨rfl, rfl, ?_, nofun, ?_⟩
    · simp [hu.valid, hver]
    · rintro g' k' ⟨⟩
      refine ⟨errCode_toNat k g, rfl, ?_⟩
      simp [hu.valid]

/-! ### The transition table -/

/-- A transition from state `g` of the machine: to `g'`, or an error of `g` with `FSM` not yet moved; `MODE` as
before. -/
def StageOut.Follows {α : Type} (x : StageOut α) (mode : BitVec 2) (g g' : Stage) : Prop :=
  match x with
  | .ok _ t => t.fsm = g'.code ∧ t.mode = mode
  | .err _ e t => e = g ∧ t.fsm = g.code ∧ t.mode = mode

/-- The plaintext is handed on to `Decompress` or to `Assemble` (R257, R258). -/
theorem plaintextReady_follows (pt : List Byte) (s : State) (g : Stage) :
    (plaintextReady pt s).Follows s.mode g (if s.comp then .decompress else .assemble) := by
  unfold plaintextReady
  cases s.comp <;> exact ⟨rfl, rfl⟩

/-- `Start` of a distributed run loads the leading record's payload or raises an error of `Start` (R253 to R255). -/
theorem startDistributed_follows (P : Params) {s : State} (h : s.fsm = Stage.start.code) :
    (startDistributed P s).Follows s.mode .start .keyDerivation := by
  unfold startDistributed startValidate startPayload
  split
  · exact ⟨rfl, h, rfl⟩
  · split
    · exact ⟨rfl, h, rfl⟩
    · split
      · exact ⟨rfl, h, rfl⟩
      · split
        · exact ⟨rfl, h, rfl⟩
        · exact ⟨rfl, rfl⟩

/-- `Decrypt` checks the alignment and hands the plaintext on (R257). -/
theorem decrypt_follows (P : Params) {s : State} (h : s.fsm = Stage.decrypt.code) :
    ((ddpTake true s).andThen fun ct s => (ddpDecrypt P true ct s).andThen plaintextReady).Follows s.mode .decrypt
      (if s.comp then .decompress else .assemble) := by
  unfold ddpTake
  dsimp only
  split
  · exact ⟨rfl, h, rfl⟩
  · exact plaintextReady_follows _ ((s.streamAdvance _).invalidate .KEY) _

/-- Each state of the machine has one transition (R250). -/
theorem orchStep_follows (P : Params) (pt : List Byte) {g : Stage} {s : State} (h : s.fsm = g.code) :
    (orchStep P pt s).Follows s.mode g (orchNext s.dist s.comp g) := by
  cases g with
  | start =>
    rw [orchStep_start h, orchNext]
    cases s.dist with
    | true => exact startDistributed_follows P h
    | false => exact plaintextReady_follows _ (s.streamAdvance s.streamAvail) _
  | keyDerivation =>
    rw [orchStep_keyDerivation h]
    exact ⟨rfl, rfl⟩
  | decrypt =>
    rw [orchStep_decrypt h]
    exact decrypt_follows P h
  | decompress =>
    rw [orchStep_decompress h, ddpDecompress]
    cases inflate P.inflateIncomplete pt with
    | none => exact ⟨rfl, h, rfl⟩
    | some plain => exact ⟨rfl, rfl⟩
  | assemble =>
    rw [orchStep_assemble h, rpaStage]
    cases assemble P s.ver s.plain with
    | none => exact ⟨rfl, h, rfl⟩
    | some out => exact ⟨rfl, rfl⟩
  | done =>
    rw [orchStep_done h]
    exact ⟨h, rfl⟩
  | failed =>
    simp only [orchStep, h, Stage.ofCode_code]
    exact ⟨h, rfl⟩

/-- Settles O45: a transition follows the table, and the error entry of a SEC.RUN moves `FSM` to `Failed`. -/
theorem orchestratorFollowsTransitionTable : Obligations.OrchestratorFollowsTransitionTable := by
  unfold Obligations.OrchestratorFollowsTransitionTable
  intro P g pt s hg
  have hfollows := orchStep_follows P pt hg
  refine ⟨fun pt' t hok => ?_, fun k g' t herr => ?_⟩
  · rwa [hok] at hfollows
  · rw [herr] at hfollows ⊢
    obtain ⟨hstage, hfsm, hmode⟩ := hfollows
    exact ⟨hstage, hfsm, hmode, rfl⟩

end Sys2Proof.Machine
end

section
/-! PROOFS. The decodes whole (spec/42_decrypt_decompress.md R162 to R172), and the ECB stage: no chaining, and the
inverse of an encryption (R163). -/

namespace Sys2Proof.Machine

/-! ### The ECB stage -/

/-- The whole blocks of a sequence, one after another, are the sequence (R163). -/
theorem flatMap_slices (n : Nat) (l : List Byte) :
    ((List.range n).flatMap fun b => slice (16 * b) (16 * b + 16) l) = l.take (16 * n) := by
  induction n with
  | zero => simp
  | succ n ih =>
    rw [List.range_succ, List.flatMap_append, ih, Nat.mul_succ, List.take_add]
    simp [slice]

/-- A block of a sequence stands at its place before whatever follows. -/
theorem slice_append_left (a b : List Byte) (i : Nat) (h : 16 * i + 16 ≤ a.length) :
    slice (16 * i) (16 * i + 16) (a ++ b) = slice (16 * i) (16 * i + 16) a := by
  rw [slice, slice, List.drop_append_of_le_length (by omega), List.take_append_of_le_length]
  rw [List.length_drop]
  omega

/-- The blocks of what follows whole blocks stand at their own places after them. -/
theorem slice_append_right (a b : List Byte) (n i : Nat) (h : a.length = 16 * n) :
    slice (16 * (n + i)) (16 * (n + i) + 16) (a ++ b) = slice (16 * i) (16 * i + 16) b := by
  rw [slice, slice, Nat.mul_add, ← h, List.drop_length_add_append]
  simp

/-- Settles O28: the blocks of the two runs are the blocks of the run of both, in order. -/
theorem ecbHasNoChaining : Obligations.EcbHasNoChaining := by
  unfold Obligations.EcbHasNoChaining
  intro P key a b ha hb
  have hlen : (a ++ b).length / 16 = a.length / 16 + b.length / 16 := by
    rw [List.length_append]
    omega
  refine ⟨?_, by rw [ecbDecrypt_length]; omega⟩
  rw [ecbDecrypt, hlen, List.range_add, List.flatMap_append, List.flatMap_map, ecbDecrypt, ecbDecrypt]
  refine congrArg₂ (· ++ ·) (List.flatMap_congr fun i hi => ?_) (List.flatMap_congr fun i _ => ?_)
  · have hi := List.mem_range.mp hi
    rw [slice_append_left a b i (by omega)]
  · rw [slice_append_right a b _ i (by omega)]

/-- ECB encryption answers one block for each whole block. -/
theorem ecbEncrypt_length (enc : Vector Byte 16 → Vector Byte 16 → Vector Byte 16) (key : Vector Byte 16)
    (pt : List Byte) : (ecbEncrypt enc key pt).length = 16 * (pt.length / 16) :=
  (flatMap_blocks _ (fun _ => Vector.length_toList) _).1

/-- The `b`-th block of an ECB encryption. -/
theorem ecbEncrypt_block (enc : Vector Byte 16 → Vector Byte 16 → Vector Byte 16) (key : Vector Byte 16)
    (pt : List Byte) (b : Nat) (hb : b < pt.length / 16) :
    slice (16 * b) (16 * b + 16) (ecbEncrypt enc key pt) =
      (enc key (toBuffer 16 (slice (16 * b) (16 * b + 16) pt))).toList := by
  rw [slice, Nat.add_sub_cancel_left]
  exact (flatMap_blocks _ (fun _ => Vector.length_toList) _).2 b hb

/-- The buffer of a buffer's own bytes is the buffer. -/
theorem toBuffer_toList_self {n : Nat} (v : Vector Byte n) : toBuffer n v.toList = v := by
  apply Vector.ext
  intro i hi
  rw [toBuffer_getElem]
  simp [hi]

/-- A cipher with an inverse gives the plaintext of whole blocks back, block by block (R163). -/
theorem ecbDecrypt_ecbEncrypt (P : Params) (enc : Vector Byte 16 → Vector Byte 16 → Vector Byte 16)
    (key : Vector Byte 16) (pt : List Byte) (hinv : ∀ k b, P.blockDecrypt k (enc k b) = b) (hpt : pt.length % 16 = 0) :
    ecbDecrypt P key (ecbEncrypt enc key pt) = pt := by
  have hblocks : (ecbEncrypt enc key pt).length / 16 = pt.length / 16 := by
    rw [ecbEncrypt_length]
    omega
  calc ecbDecrypt P key (ecbEncrypt enc key pt)
      = (List.range (pt.length / 16)).flatMap fun b => slice (16 * b) (16 * b + 16) pt := by
        rw [ecbDecrypt, hblocks]
        refine List.flatMap_congr fun b hb => ?_
        have hb := List.mem_range.mp hb
        rw [ecbEncrypt_block enc key pt b hb, toBuffer_toList_self, hinv, toBuffer_toList]
        rw [slice_length]
        omega
    _ = pt.take (16 * (pt.length / 16)) := flatMap_slices _ pt
    _ = pt := List.take_of_length_le (by omega)

/-! ### The decodes -/

/-- A decode that fails: the error entry with `MODE` and the cursor as reached (R162, R165, R300). -/
def State.decodeFailed (s : State) (mode : BitVec 2) (e : BitVec 6) (icur : Nat) : State :=
  { s with mode := mode, err := e, icur := icur, vld := s.vld &&& ~~~0x03C#9, cst := 0#2 }

/-- A decode that completes: `PLAIN` is written, `IN` consumed, and the key of a keyed decode spent (R167 to R173). -/
def State.decodeDone (s : State) (keyed : Bool) (mode : BitVec 2) (icur : Nat) (plain : List Byte) : State :=
  { s with
    mode := mode, err := 0#6, icur := icur, plain := plain,
    vld := (s.vld ||| 0x010#9) &&& ~~~(if keyed then 0x00C#9 else 0x008#9), cst := 0#2 }

@[simp] theorem State.decodeFailed_valid (s : State) (m : BitVec 2) (e : BitVec 6) (n : Nat) (a : Item) :
    (s.decodeFailed m e n).valid a =
      (s.valid a && !decide (a = .OUT) && !decide (a = .PLAIN) && !decide (a = .IN) && !decide (a = .KEY)) := by
  cases a <;> simp [State.decodeFailed, State.valid, Item.bit]

@[simp] theorem State.decodeDone_valid (s : State) (keyed : Bool) (m : BitVec 2) (n : Nat) (plain : List Byte)
    (a : Item) : (s.decodeDone keyed m n plain).valid a =
      ((s.valid a || decide (a = .PLAIN)) && !decide (a = .IN) && !(keyed && decide (a = .KEY))) := by
  cases keyed <;> cases a <;> simp [State.decodeDone, State.valid, Item.bit]

/-- The plaintext of a decode: the remainder, decrypted when there is a key (R163, R164). -/
def ddpPlaintext (P : Params) (keyed : Bool) (s : State) : List Byte :=
  if keyed then ecbDecrypt P s.key (s.inp.drop s.icur) else s.inp.drop s.icur

section
variable {P : Params} {keyed comp : Bool} {s : State}

/-- The remainder of a keyed decode is not whole blocks (R162). -/
theorem ddpDecode_of_misaligned (hmis : (s.inp.drop s.icur).length % 16 ≠ 0) :
    ddpDecode P true comp s = s.decodeFailed (modeBits true comp) 0x13#6 (s.icur + s.streamAvail) := by
  have htake : ddpTake true ((s.setMode (modeBits true comp)).setErr 0) = .err .decryptionFailure .decrypt
      (((s.setMode (modeBits true comp)).setErr 0).streamAdvance s.streamAvail) := by
    rw [← State.streamBytes_avail] at hmis
    simp only [ddpTake, State.setErr_streamAvail, State.setMode_streamAvail, State.setErr_streamBytes,
      State.setMode_streamBytes, Bool.true_and, bne_iff_ne, if_pos hmis]
  rw [ddpDecode, htake, StageOut.andThen_err, StageOut.finish_err, State.errorEntry_false_eq, errCode_decrypt]
  rfl

/-- The state in which a decode has its plaintext (R162 to R164). -/
def State.decodeEntered (s : State) (keyed comp : Bool) : State :=
  { s with
    mode := modeBits keyed comp, err := 0#6, icur := s.icur + s.streamAvail,
    vld := if keyed then s.vld &&& ~~~0x004#9 else s.vld }

theorem State.decodeEntered_valid (s : State) (keyed comp : Bool) (a : Item) :
    (s.decodeEntered keyed comp).valid a = (s.valid a && !(keyed && decide (a = .KEY))) := by
  cases keyed <;> cases a <;> simp [State.decodeEntered, State.valid, Item.bit]

/-- The last stage of a decode stores the record stream (R165). -/
theorem ddpDecompress_of_ok {pt plain : List Byte} (hrec : recordStreamOf P comp pt = .ok plain) (t : State) :
    ddpDecompress P comp pt t = .ok () (t.writePlain plain) := by
  rw [recordStreamOf_eq_ok_iff] at hrec
  cases comp with
  | false => simp_all [ddpDecompress]
  | true => simp_all [ddpDecompress]

/-- The last stage of a decode fails when there is no record stream (R165). -/
theorem ddpDecompress_of_error {pt : List Byte} {e : Stage × ErrKind} (hrec : recordStreamOf P comp pt = .error e)
    (t : State) : ddpDecompress P comp pt t = .err .decompressionFailure .decompress t := by
  obtain ⟨rfl, -⟩ := recordStreamOf_error hrec
  cases hinf : inflate P.inflateIncomplete pt with
  | none => simp [ddpDecompress, hinf]
  | some bytes => simp [recordStreamOf, hinf] at hrec

/-- An aligned decode goes on with its plaintext (R163, R164). -/
theorem ddpDecode_of_aligned (haligned : keyed = true → (s.inp.drop s.icur).length % 16 = 0) :
    ddpDecode P keyed comp s = StageOut.finish false ((ddpDecompress P comp (ddpPlaintext P keyed s)
      (s.decodeEntered keyed comp)).andThen fun _ s => .ok () (s.invalidate .IN)) := by
  rw [← State.streamBytes_avail] at haligned
  simp only [ddpDecode, ddpTake, ddpPlaintext, ← State.streamBytes_avail]
  cases keyed with
  | false => rfl
  | true =>
    simp only [State.setErr_streamAvail, State.setMode_streamAvail, State.setErr_streamBytes,
      State.setMode_streamBytes, haligned rfl, ddpDecrypt]
    rfl

/-- The plaintext of a decode does not inflate (R165). -/
theorem ddpDecode_of_not_inflated (haligned : keyed = true → (s.inp.drop s.icur).length % 16 = 0)
    {e : Stage × ErrKind} (hrec : recordStreamOf P comp (ddpPlaintext P keyed s) = .error e) :
    ddpDecode P keyed comp s = s.decodeFailed (modeBits keyed comp) 0x1C#6 (s.icur + s.streamAvail) := by
  have hmask : s.vld &&& ~~~Item.KEY.mask &&& ~~~0x03C#9 = s.vld &&& ~~~0x03C#9 := and_not_and_not ..
  rw [ddpDecode_of_aligned haligned, ddpDecompress_of_error hrec, StageOut.andThen_err, StageOut.finish_err,
    State.errorEntry_false_eq, errCode_decompress]
  cases keyed with
  | false => rfl
  | true => rw [State.decodeFailed, ← hmask]; rfl

/-- A decode that gets its record stream completes (R167 to R170). -/
theorem ddpDecode_of_inflated {plain : List Byte} (haligned : keyed = true → (s.inp.drop s.icur).length % 16 = 0)
    (hrec : recordStreamOf P comp (ddpPlaintext P keyed s) = .ok plain) :
    ddpDecode P keyed comp s = s.decodeDone keyed (modeBits keyed comp) (s.icur + s.streamAvail) plain := by
  have hvld : (((s.decodeEntered keyed comp).writePlain plain).invalidate .IN).vld =
      (s.vld ||| 0x010#9) &&& ~~~(if keyed then 0x00C#9 else 0x008#9) := by
    refine State.vld_ext (t := s.decodeDone keyed 0#2 0 plain) fun a => ?_
    cases a <;> simp [State.decodeEntered_valid]
  rw [ddpDecode_of_aligned haligned, ddpDecompress_of_ok hrec, StageOut.andThen_ok, StageOut.finish_ok,
    State.decodeDone, ← hvld]
  cases keyed <;> rfl

end

/-- A DDP.DECODE ends in `DecryptionFailure` (keyed), in `DecompressionFailure` (compressed), or with a record stream
(R167 to R170). -/
theorem ddpDecode_cases (P : Params) (keyed comp : Bool) (s : State) :
    (∃ e ∈ possibleErr 0#6 (ddpInstr keyed comp),
        ddpDecode P keyed comp s = s.decodeFailed (modeBits keyed comp) e (s.icur + s.streamAvail)) ∨
      ∃ plain, ddpDecode P keyed comp s = s.decodeDone keyed (modeBits keyed comp) (s.icur + s.streamAvail) plain := by
  by_cases haligned : keyed = true → (s.inp.drop s.icur).length % 16 = 0
  · cases hrec : recordStreamOf P comp (ddpPlaintext P keyed s) with
    | error e =>
      obtain ⟨rfl, -⟩ := recordStreamOf_error hrec
      exact .inl ⟨_, by cases keyed <;> decide, ddpDecode_of_not_inflated haligned hrec⟩
    | ok plain => exact .inr ⟨plain, ddpDecode_of_inflated haligned hrec⟩
  · obtain ⟨rfl, hmis⟩ := Classical.not_imp.mp haligned
    exact .inl ⟨_, by cases comp <;> decide, ddpDecode_of_misaligned hmis⟩

/-- Settles O25: the decode needs `IN` alone, and whether the remainder inflates decides between its two ends. -/
theorem plainDecodeInflates : Obligations.PlainDecodeInflates := by
  unfold Obligations.PlainDecodeInflates
  intro s
  refine ⟨by decide, fun hin => exec_ddpInstr_of_invalid false true s (by simp [hin]), fun hin hcur => ?_⟩
  have hrun : exec .ddpDecodePC s = .next (ddpDecode Config.params false true s) := by
    rw [exec_eq_commandWith]
    exact congrArg _ (commandWith_ddpInstr _ false true s hin nofun)
  rw [hrun, ← State.icur_add_streamAvail hcur]
  refine ⟨fun bytes hinf => ?_, fun hinf => ?_⟩
  · exact congrArg _ (ddpDecode_of_inflated nofun (recordStreamOf_eq_ok_iff.mpr hinf))
  · exact congrArg _ (ddpDecode_of_not_inflated nofun (recordStreamOf_of_inflate_none hinf))

/-- Settles O27: the decode needs `IN` and `KEY`; the alignment is checked before anything is decrypted. -/
theorem keyedDecodeInflatesPlaintext : Obligations.KeyedDecodeInflatesPlaintext := by
  unfold Obligations.KeyedDecodeInflatesPlaintext
  intro s
  refine ⟨by decide, fun hinvalid => ?_, fun hin hkey hcur => ⟨exec_eq_commandWith _ _, fun P => ?_⟩⟩
  · exact exec_ddpInstr_of_invalid true true s (by rwa [Bool.not_true, Bool.false_or, Bool.and_eq_false_iff])
  · have hrun : commandWith P .ddpDecodeKC s = ddpDecode P true true s :=
      commandWith_ddpInstr P true true s hin fun _ => hkey
    rw [hrun, ← List.length_drop, ← State.icur_add_streamAvail hcur]
    refine ⟨fun hmis => ddpDecode_of_misaligned hmis, fun haligned => ⟨fun bytes hinf => ?_, fun hinf => ?_⟩⟩
    · exact ddpDecode_of_inflated (fun _ => haligned) (recordStreamOf_eq_ok_iff.mpr hinf)
    · exact ddpDecode_of_not_inflated (fun _ => haligned) (recordStreamOf_of_inflate_none hinf)

/-- A keyed decode leaves no valid key, however it ends (R172, R300). -/
theorem ddpDecode_keyed_valid_key (P : Params) (comp : Bool) (s : State) :
    (ddpDecode P true comp s).valid .KEY = false := by
  obtain ⟨e, -, h⟩ | ⟨plain, h⟩ := ddpDecode_cases P true comp s
  · simp [h]
  · simp [h]

/-- Settles O29: the next keyed decode needs a valid `KEY`. -/
theorem keyIsSingleUse : Obligations.KeyIsSingleUse := by
  unfold Obligations.KeyIsSingleUse
  intro comp comp' s hvalid
  rw [s.operandsValid_ddpInstr true comp, Bool.and_eq_true] at hvalid
  obtain ⟨hin, hkey⟩ := hvalid
  refine ⟨_, exec_eq_commandWith _ _, ?_⟩
  rw [commandWith_ddpInstr _ true comp s hin fun _ => by simpa using hkey]
  have hspent := ddpDecode_keyed_valid_key Config.params comp s
  exact ⟨hspent, exec_ddpInstr_of_invalid true comp' _ (by simp [hspent])⟩

end Sys2Proof.Machine
end

section
/-! PROOFS. Section runs and the unit commands (spec/30_encoding.md R93), and the round trip (R268). -/

namespace Sys2Proof.Machine

/-- A completed assembly: `OUT` is written, and `PLAIN` consumed (R238). -/
def State.assembled (s : State) (out : List Paragraph) : State :=
  { s with err := 0#6, out := out, vld := (s.vld ||| 0x020#9) &&& ~~~0x010#9, cst := 0#2 }

@[simp] theorem State.assembled_valid (s : State) (out : List Paragraph) (a : Item) :
    (s.assembled out).valid a = ((s.valid a || decide (a = .OUT)) && !decide (a = .PLAIN)) := by
  cases a <;> simp [State.assembled, State.valid, Item.bit]

section
variable {P : Params} {s : State} (hplain : s.valid .PLAIN = true) (hver : s.valid .VER = true)
include hplain hver

/-- An assembly that is not refused, of a record stream, whole (R238). -/
theorem commandWith_rpaAssemble_of_assembled {ps : List Paragraph} (hasm : assemble P s.ver s.plain = some ps) :
    commandWith P .rpaAssemble s = s.assembled ps := by
  obtain ⟨-, -, hvalid⟩ := assemblyMapsRecordsInOrder s
  obtain ⟨-, hends⟩ := hvalid hplain hver
  exact (hends P).1 ps ((assemble_eq_some_iff ..).mp hasm)

/-- An assembly that is not refused, of any other stream, whole (R234, R238). -/
theorem commandWith_rpaAssemble_of_not_assembled (hasm : assemble P s.ver s.plain = none) :
    commandWith P .rpaAssemble s = s.decodeFailed s.mode 0x22#6 s.icur := by
  obtain ⟨-, -, hvalid⟩ := assemblyMapsRecordsInOrder s
  obtain ⟨-, hends⟩ := hvalid hplain hver
  exact (hends P).2 ((assemble_eq_none_iff ..).mp hasm)

end

/-- A plain run that ends in `Done` had a record stream (R258, R260). -/
theorem recordStream_of_secRun_plain_done {P : Params} {comp : Bool} {s : State}
    (hdone : (secRun P false comp s).fsm = 5#3) :
    ∃ plain ps, recordStreamOf P comp (s.inp.drop s.icur) = .ok plain ∧ assemble P s.ver plain = some ps := by
  cases hrec : recordStreamOf P comp (s.inp.drop s.icur) with
  | error e =>
    rw [secRun_plain_of_not_inflated hrec] at hdone
    exact absurd hdone (show (6#3) ≠ 5#3 by decide)
  | ok plain =>
    cases hasm : assemble P s.ver plain with
    | none =>
      rw [secRun_plain_of_not_assembled hrec hasm] at hdone
      exact absurd hdone (show (6#3) ≠ 5#3 by decide)
    | some ps => exact ⟨plain, ps, rfl, hasm⟩

/-- Settles O50: the decode leaves the record stream in `PLAIN`, and the assembly its section in `OUT`. -/
theorem plainRunEqualsDecodeThenAssemble : Obligations.PlainRunEqualsDecodeThenAssemble := by
  unfold Obligations.PlainRunEqualsDecodeThenAssemble
  intro comp s t hin hver hexec hdone
  rw [exec_eq_commandWith, commandWith_secInstr _ false comp s hin hver] at hexec
  cases hexec
  obtain ⟨plain, ps, hrec, hasm⟩ := recordStream_of_secRun_plain_done hdone
  have hdecode := ddpDecode_of_inflated (P := Config.params) (keyed := false) (s := s) nofun hrec
  have hvld : ((s.vld ||| 0x010#9) &&& ~~~0x008#9 ||| 0x020#9) &&& ~~~0x010#9 =
      (s.vld ||| 0x020#9) &&& ~~~0x018#9 := set_clear_set_clear _ _ _ _ _ (by decide) (by decide)
  simp only [execAll, exec_eq_commandWith, commandWith_ddpInstr _ false comp s hin nofun]
  rw [hdecode, commandWith_rpaAssemble_of_assembled (by simp) (by simp [hver]) hasm,
    secRun_plain_of_assembled hrec hasm, State.runDone, ← hvld]
  rfl

/-- A distributed run that ends in `Done` had an accepted leading record, whole blocks after it, and a record stream
(R253 to R260). -/
theorem recordStream_of_secRun_dist_done {P : Params} {comp : Bool} {s : State} {h : Header}
    (hf : frameAt P (s.inp.drop s.icur) = some h) (hdone : (secRun P true comp s).fsm = 5#3) :
    Accepted P h (s.inp.drop s.icur) ∧ ((s.inp.drop s.icur).drop (h.hlen + 256)).length % 16 = 0 ∧
      ∃ plain ps, recordStreamOf P comp (distPlaintext P h (s.inp.drop s.icur)) = .ok plain ∧
        assemble P s.ver plain = some ps := by
  have hnot : ¬(6#3 = 5#3) := by decide
  obtain hnone | ⟨h', hf', hbad | ⟨htag, hsize, hcut⟩ | hacc⟩ := leadingRecord_cases P (s.inp.drop s.icur)
  · rw [hnone] at hf
    cases hf
  · rw [secRun_dist_of_malformed comp hf' hbad] at hdone
    exact absurd hdone hnot
  · rw [secRun_dist_of_cut_payload comp hf' htag hsize hcut] at hdone
    exact absurd hdone hnot
  · obtain rfl : h' = h := Option.some.inj (hf'.symm.trans hf)
    by_cases haligned : ((s.inp.drop s.icur).drop (h'.hlen + 256)).length % 16 = 0
    · refine ⟨hacc, haligned, ?_⟩
      cases hrec : recordStreamOf P comp (distPlaintext P h' (s.inp.drop s.icur)) with
      | error e =>
        rw [secRun_dist_of_not_inflated hacc haligned hrec] at hdone
        exact absurd hdone hnot
      | ok plain =>
        cases hasm : assemble P s.ver plain with
        | none =>
          rw [secRun_dist_of_not_assembled hacc haligned hrec hasm] at hdone
          exact absurd hdone hnot
        | some ps => exact ⟨plain, ps, rfl, hasm⟩
    · rw [secRun_dist_of_misaligned hacc comp haligned] at hdone
      exact absurd hdone hnot

/-- A derivation that is not refused, whole (R130, R141). -/
theorem commandWith_kdDerive_of_valid (P : Params) {s : State} (h : s.valid .OB = true) :
    commandWith P .kdDerive s =
      { s with
        regS := deriveLastS P s.ob, key := deriveKey P s.ob, vld := (s.vld ||| 0x004#9) &&& ~~~0x001#9,
        cst := 0#2 } := by
  rw [← s.operandsValid_kdDerive] at h
  rw [commandWith, kdDerive, State.require_of_valid _ _ _ h, State.keyDerivation_setCst_ok_eq]

/-- The leading block loaded by hand, past which the cursor then stands (R93). -/
def State.blockLoaded (h : Header) (s : State) : State :=
  { s with
    ob := leadingBlock h (s.inp.drop s.icur), icur := s.icur + h.hlen + 256, vld := s.vld ||| 0x002#9 }

/-- The block loaded and the key derived from it (R93, R130). -/
def State.blockDerived (P : Params) (h : Header) (s : State) : State :=
  let ob := leadingBlock h (s.inp.drop s.icur)
  { s with
    regS := deriveLastS P ob, ob := ob, key := deriveKey P ob, icur := s.icur + h.hlen + 256,
    vld := (s.vld ||| 0x006#9) &&& ~~~0x001#9, cst := 0#2 }

theorem commandWith_kdDerive_blockLoaded (P : Params) (h : Header) (s : State) :
    commandWith P .kdDerive (s.blockLoaded h) = s.blockDerived P h := by
  have hob : (s.blockLoaded h).valid .OB = true := by simp [State.blockLoaded, State.valid, Item.bit]
  have hmask : s.vld ||| 0x002#9 ||| 0x004#9 = s.vld ||| 0x006#9 := BitVec.or_assoc ..
  rw [commandWith_kdDerive_of_valid P hob]
  simp only [State.blockLoaded, State.blockDerived, hmask]

/-- Settles O51: after the derivation the keyed decode reads the ciphertext, its plaintext is the run's, and so are the
record stream and the section. -/
theorem distributedRunEqualsDeriveDecodeAssemble : Obligations.DistributedRunEqualsDeriveDecodeAssemble := by
  unfold Obligations.DistributedRunEqualsDeriveDecodeAssemble
  intro P comp s t h hin hver ht hdone hf
  rw [commandWith_secInstr P true comp s hin hver] at ht
  subst ht
  obtain ⟨hacc, haligned, plain, ps, hrec, hasm⟩ := recordStream_of_secRun_dist_done hf hdone
  have hcur : s.icur + h.hlen + 256 ≤ s.inp.length := by
    have hpayload := hacc.payload
    rw [List.length_drop] at hpayload
    omega
  have hrest : (s.blockDerived P h).inp.drop (s.blockDerived P h).icur =
      (s.inp.drop s.icur).drop (h.hlen + 256) := by
    rw [List.drop_drop, ← Nat.add_assoc]
    rfl
  have hloaded : { s with
      ob := toBuffer 256 ((s.inp.drop (s.icur + h.hlen)).take 256), icur := s.icur + h.hlen + 256,
      vld := s.vld ||| 0x002#9 } = s.blockLoaded h := by
    rw [State.blockLoaded, leadingBlock, List.drop_drop]
  have hin' : (s.blockDerived P h).valid .IN = true := by
    simpa [State.blockDerived, State.valid, Item.bit] using hin
  have hkey' : (s.blockDerived P h).valid .KEY = true := by simp [State.blockDerived, State.valid, Item.bit]
  have hver' : (s.blockDerived P h).valid .VER = true := by
    simpa [State.blockDerived, State.valid, Item.bit] using hver
  have hplaintext : ddpPlaintext P true (s.blockDerived P h) = distPlaintext P h (s.inp.drop s.icur) := by
    rw [ddpPlaintext, if_pos rfl, hrest]
    rfl
  have hdecode : ddpDecode P true comp (s.blockDerived P h) =
      (s.blockDerived P h).decodeDone true (modeBits true comp) s.inp.length plain := by
    rw [ddpDecode_of_inflated (fun _ => by rw [hrest, haligned]) (by rw [hplaintext, hrec]),
      State.icur_add_streamAvail hcur]
    rfl
  have hvld : (((s.vld ||| 0x006#9) &&& ~~~0x001#9 ||| 0x010#9) &&& ~~~0x00C#9 ||| 0x020#9) &&& ~~~0x010#9 =
      (s.vld ||| 0x022#9) &&& ~~~0x01D#9 := by
    rw [set_clear_set_clear s.vld 0x006#9 0x001#9 0x010#9 0x00C#9 (x'' := 0x012#9) (y'' := 0x00D#9)
      (by decide) (by decide)]
    exact set_clear_set_clear _ _ _ _ _ (by decide) (by decide)
  rw [hloaded, commandWith_kdDerive_blockLoaded, commandWith_ddpInstr P true comp _ hin' fun _ => hkey', hdecode,
    commandWith_rpaAssemble_of_assembled (by simp) (by simp [hver']) hasm,
    secRun_dist_of_assembled hacc haligned hrec hasm, State.keySpent_runDone_eq, ← hvld]
  rfl

/-- Settles O52: the leading record's payload is the block, so the run's key is the encryption's, and the plaintext
comes back block by block. -/
theorem distributedRoundTrip : Obligations.DistributedRoundTrip := by
  unfold Obligations.DistributedRoundTrip
  intro comp s hin hver
  refine ⟨exec_eq_commandWith _ _, fun P enc h hd pt recs ob ps => ?_⟩
  intro hinv hstream hpt hf hhlen htag hsize hrecs hps
  have hblock : leadingBlock h (s.inp.drop s.icur) = ob := by
    rw [leadingBlock, hstream, hhlen, List.append_assoc, List.drop_left, List.take_left' (by simp),
      toBuffer_toList_self]
  have hct : (s.inp.drop s.icur).drop (h.hlen + 256) = ecbEncrypt enc (deriveKey P ob) pt := by
    rw [hstream, hhlen, List.drop_left' (by simp)]
  have hacc : Accepted P h (s.inp.drop s.icur) := ⟨hf, htag, hsize, by simp [hstream, hhlen]⟩
  have haligned : ((s.inp.drop s.icur).drop (h.hlen + 256)).length % 16 = 0 := by
    rw [hct, ecbEncrypt_length, Nat.mul_mod_right]
  have hplaintext : distPlaintext P h (s.inp.drop s.icur) = pt := by
    rw [distPlaintext, hblock, hct, ecbDecrypt_ecbEncrypt P enc _ pt hinv hpt]
  have hrec : recordStreamOf P comp (distPlaintext P h (s.inp.drop s.icur)) = .ok recs := by
    rw [hplaintext]
    exact recordStreamOf_eq_ok_iff.mpr hrecs
  rw [commandWith_secInstr P true comp s hin hver,
    secRun_dist_of_assembled hacc haligned hrec ((assemble_eq_some_iff ..).mpr hps)]
  exact ⟨rfl, rfl, rfl, by simp⟩

end Sys2Proof.Machine
end

section
/-! PROOFS. What a command may write (spec/60_exceptions.md R300, R304; spec/10_state.md R21, R22; spec/20_memory.md
R61): the frame of each command, from the whole next states of the commands. -/

namespace Sys2Proof.Machine

/-! ### The ends of the units that own `ERR` -/

/-- What every end of a decode, an assembly or a run keeps of the state it is built on: all but `MODE`, `FSM`, `ERR`,
`CST`, the cursor, the contents of `PLAIN` and `OUT`, and the bits of `IN`, `PLAIN`, `OUT` and `KEY`. -/
structure UnitEnd (s t : State) : Prop where
  regS : t.regS = s.regS
  regArg : t.regArg = s.regArg
  regRes : t.regRes = s.regRes
  ver : t.ver = s.ver
  ob : t.ob = s.ob
  key : t.key = s.key
  inp : t.inp = s.inp
  hostq : t.hostq = s.hostq
  reply : t.reply = s.reply
  valid : ∀ a ∈ [Item.S, .OB, .VER, .RES, .ARG], t.valid a = s.valid a

theorem unitEnd_decodeFailed (s : State) (m : BitVec 2) (e : BitVec 6) (n : Nat) : UnitEnd s (s.decodeFailed m e n) :=
  ⟨rfl, rfl, rfl, rfl, rfl, rfl, rfl, rfl, rfl, fun a ha => by cases a <;> simp_all⟩

theorem unitEnd_decodeDone (s : State) (keyed : Bool) (m : BitVec 2) (n : Nat) (plain : List Byte) :
    UnitEnd s (s.decodeDone keyed m n plain) :=
  ⟨rfl, rfl, rfl, rfl, rfl, rfl, rfl, rfl, rfl, fun a ha => by cases a <;> simp_all⟩

theorem unitEnd_runFailed (s : State) (m : BitVec 2) (e : BitVec 6) (n : Nat) (plain : List Byte) :
    UnitEnd s (s.runFailed m e n plain) :=
  ⟨rfl, rfl, rfl, rfl, rfl, rfl, rfl, rfl, rfl, fun a ha => by cases a <;> simp_all⟩

theorem unitEnd_runDone (s : State) (m : BitVec 2) (n : Nat) (plain : List Byte) (out : List Paragraph) :
    UnitEnd s (s.runDone m n plain out) :=
  ⟨rfl, rfl, rfl, rfl, rfl, rfl, rfl, rfl, rfl, fun a ha => by cases a <;> simp_all⟩

/-- A decode that ends keeps `FSM` and `OUT` too (R300). -/
theorem ddpDecode_unitEnd (P : Params) (keyed comp : Bool) (s : State) :
    UnitEnd s (ddpDecode P keyed comp s) ∧ (ddpDecode P keyed comp s).fsm = s.fsm ∧
      (ddpDecode P keyed comp s).out = s.out := by
  obtain ⟨e, -, h⟩ | ⟨plain, h⟩ := ddpDecode_cases P keyed comp s
  · rw [h]
    exact ⟨unitEnd_decodeFailed .., rfl, rfl⟩
  · rw [h]
    exact ⟨unitEnd_decodeDone .., rfl, rfl⟩

/-- An assembly ends with its section, or in `TruncatedStream(Assemble)` (R238). -/
theorem rpaAssemble_cases (P : Params) {s : State} (h : s.operandsValid .rpaAssemble = true) :
    commandWith P .rpaAssemble s = s.decodeFailed s.mode 0x22#6 s.icur ∨
      ∃ out, commandWith P .rpaAssemble s = s.assembled out := by
  rw [s.operandsValid_rpaAssemble, Bool.and_eq_true] at h
  obtain ⟨hplain, hver⟩ := h
  cases hasm : assemble P s.ver s.plain with
  | none => exact .inl (commandWith_rpaAssemble_of_not_assembled hplain hver hasm)
  | some out => exact .inr ⟨out, commandWith_rpaAssemble_of_assembled hplain hver hasm⟩

theorem unitEnd_assembled (s : State) (out : List Paragraph) : UnitEnd s (s.assembled out) :=
  ⟨rfl, rfl, rfl, rfl, rfl, rfl, rfl, rfl, rfl, fun a ha => by cases a <;> simp_all⟩

/-! ### The frame -/

/-- What a command leaves as it was: the host's items and side always, and every item but those its own unit writes. -/
structure Frame (i : Instr) (s t : State) : Prop where
  host : t.regArg = s.regArg ∧ t.valid .ARG = s.valid .ARG ∧ t.ver = s.ver ∧ t.valid .VER = s.valid .VER ∧
    t.inp = s.inp ∧ t.hostq = s.hostq ∧ t.reply = s.reply
  res : i ≠ .lprngDraw → t.regRes = s.regRes ∧ t.valid .RES = s.valid .RES
  ob : i ∉ [Instr.secRunDU, .secRunDC] → t.ob = s.ob ∧ t.valid .OB = s.valid .OB
  prng : i ∉ [Instr.lprngNew, .lprngDraw, .kdDerive, .secRunDU, .secRunDC] →
    t.regS = s.regS ∧ t.valid .S = s.valid .S
  key : i ∉ [Instr.kdDerive, .secRunDU, .secRunDC] → t.key = s.key
  fsm : isSecRun i = false → t.fsm = s.fsm
  quiet : ownsErr i = false → t.err = s.err ∧ t.mode = s.mode ∧ t.out = s.out ∧ t.valid .OUT = s.valid .OUT ∧
    t.plain = s.plain ∧ t.valid .PLAIN = s.valid .PLAIN ∧ t.valid .IN = s.valid .IN
  stream : readsStream i = false → t.icur = s.icur ∧ t.mode = s.mode ∧ t.plain = s.plain
  decode : i ∈ [Instr.ddpDecodePU, .ddpDecodePC, .ddpDecodeKU, .ddpDecodeKC] → t.out = s.out

/-- A refusal writes `CST` alone (R296). -/
theorem frame_refuse (i : Instr) (s : State) : Frame i s (s.refuse .useBeforeWrite) :=
  ⟨⟨rfl, rfl, rfl, rfl, rfl, rfl, rfl⟩, fun _ => ⟨rfl, rfl⟩, fun _ => ⟨rfl, rfl⟩, fun _ => ⟨rfl, rfl⟩, fun _ => rfl,
    fun _ => rfl, fun _ => ⟨rfl, rfl, rfl, rfl, rfl, rfl, rfl⟩, fun _ => ⟨rfl, rfl, rfl⟩, fun _ => rfl⟩

theorem frame_lprngNew (s : State) : Frame .lprngNew s ((s.writeS s.regArg).setCst .ok) := by
  constructor <;> simp

theorem frame_lprngDraw (P : Params) (s : State) :
    Frame .lprngDraw s (((s.writeS (lprngNext P s.regS)).writeRes (lprngOut P (lprngNext P s.regS))).setCst .ok) := by
  constructor <;> simp

theorem frame_kdDerive (P : Params) (s : State) : Frame .kdDerive s ((s.keyDerivation P).setCst .ok) := by
  constructor <;> simp [State.keyDerivation]

/-- The end of a unit that owns `ERR`, built on the state before the command, has the frame of its command. -/
theorem UnitEnd.frame {i : Instr} {s t : State} (h : UnitEnd s t) (howns : ownsErr i = true)
    (hfsm : isSecRun i = false → t.fsm = s.fsm)
    (hstream : readsStream i = false → t.icur = s.icur ∧ t.mode = s.mode ∧ t.plain = s.plain)
    (hdecode : i ∈ [Instr.ddpDecodePU, .ddpDecodePC, .ddpDecodeKU, .ddpDecodeKC] → t.out = s.out) : Frame i s t where
  host := ⟨h.regArg, h.valid .ARG (by simp), h.ver, h.valid .VER (by simp), h.inp, h.hostq, h.reply⟩
  res _ := ⟨h.regRes, h.valid .RES (by simp)⟩
  ob _ := ⟨h.ob, h.valid .OB (by simp)⟩
  prng _ := ⟨h.regS, h.valid .S (by simp)⟩
  key _ := h.key
  fsm := hfsm
  quiet hquiet := absurd (howns.symm.trans hquiet) (by decide)
  stream := hstream
  decode := hdecode

theorem frame_ddpDecode (P : Params) (keyed comp : Bool) (s : State) :
    Frame (ddpInstr keyed comp) s (ddpDecode P keyed comp s) := by
  obtain ⟨hend, hfsm, hout⟩ := ddpDecode_unitEnd P keyed comp s
  have hreads : readsStream (ddpInstr keyed comp) = true := by cases keyed <;> cases comp <;> rfl
  have howns : ownsErr (ddpInstr keyed comp) = true := by cases keyed <;> cases comp <;> rfl
  exact hend.frame howns (fun _ => hfsm) (fun h => absurd (hreads.symm.trans h) (by decide)) fun _ => hout

theorem frame_rpaAssemble (P : Params) {s : State} (h : s.operandsValid .rpaAssemble = true) :
    Frame .rpaAssemble s (commandWith P .rpaAssemble s) := by
  obtain heq | ⟨out, heq⟩ := rpaAssemble_cases P h
  · rw [heq]
    exact (unitEnd_decodeFailed ..).frame rfl (fun _ => rfl) (fun _ => ⟨rfl, rfl, rfl⟩)
      (fun h => absurd h (by decide))
  · rw [heq]
    exact (unitEnd_assembled ..).frame rfl (fun _ => rfl) (fun _ => ⟨rfl, rfl, rfl⟩)
      (fun h => absurd h (by decide))

/-- A run's end is the end of a unit, built on the state before the run with the leading block loaded or not. -/
theorem secRun_unitEnd (P : Params) (dist comp : Bool) (s : State) :
    ∃ past u, (past = true → dist = true) ∧ RunBase P past s u ∧ UnitEnd u (secRun P dist comp s) := by
  obtain ⟨u, n, plain, -, ⟨ps, -, hu, hrun⟩ | ⟨g, k, -, -, hu, hrun⟩⟩ := runEnds P dist comp s
  · exact ⟨dist, u, id, hu, hrun ▸ unitEnd_runDone ..⟩
  · exact ⟨_, u, fun h => (Bool.and_eq_true_iff.mp h).1, hu, hrun ▸ unitEnd_runFailed ..⟩

/-- What loading and spending the leading block keeps, the end of a unit keeps (R93). -/
theorem UnitEnd.frame_keySpent {P : Params} {comp : Bool} {s t : State} {ob : Vector Byte 256}
    (h : UnitEnd (s.keySpent P ob) t) : Frame (secInstr true comp) s t where
  host := by
    refine ⟨h.regArg, (h.valid .ARG (by simp)).trans ?_, h.ver, (h.valid .VER (by simp)).trans ?_, h.inp, h.hostq,
      h.reply⟩ <;> simp
  res _ := ⟨h.regRes, (h.valid .RES (by simp)).trans (by simp)⟩
  ob hob := absurd hob (by cases comp <;> decide)
  prng hprng := absurd hprng (by cases comp <;> decide)
  key hkey := absurd hkey (by cases comp <;> decide)
  fsm hfsm := absurd hfsm (by cases comp <;> decide)
  quiet hquiet := absurd hquiet (by cases comp <;> decide)
  stream hstream := absurd hstream (by cases comp <;> decide)
  decode hdecode := absurd hdecode (by cases comp <;> decide)

theorem frame_secRun (P : Params) (dist comp : Bool) (s : State) :
    Frame (secInstr dist comp) s (secRun P dist comp s) := by
  obtain ⟨past, u, hdist, hu, hend⟩ := secRun_unitEnd P dist comp s
  cases past with
  | true =>
    obtain rfl := hdist rfl
    obtain ⟨ob, rfl⟩ : ∃ ob, u = s.keySpent P ob := hu
    exact hend.frame_keySpent
  | false =>
    obtain rfl : u = s := hu
    exact hend.frame (by cases dist <;> cases comp <;> rfl)
      (fun h => absurd h (by cases dist <;> cases comp <;> decide))
      (fun h => absurd h (by cases dist <;> cases comp <;> decide))
      (fun h => absurd h (by cases dist <;> cases comp <;> decide))

/-! ### The commands -/

/-- What a command whose `require` line passes does, by its unit: the effect of its rule. -/
inductive Effect (P : Params) (s : State) : Instr → State → Prop where
  | lprngNew : Effect P s .lprngNew ((s.writeS s.regArg).setCst .ok)
  | lprngDraw : Effect P s .lprngDraw
      (((s.writeS (lprngNext P s.regS)).writeRes (lprngOut P (lprngNext P s.regS))).setCst .ok)
  | kdDerive : Effect P s .kdDerive ((s.keyDerivation P).setCst .ok)
  | ddpDecode (keyed comp : Bool) : Effect P s (ddpInstr keyed comp) (ddpDecode P keyed comp s)
  | rpaAssemble (h : s.operandsValid .rpaAssemble = true) : Effect P s .rpaAssemble (commandWith P .rpaAssemble s)
  | secRun (dist comp : Bool) : Effect P s (secInstr dist comp) (secRun P dist comp s)

/-- A command whose `require` line passes has its unit's effect (R296). -/
theorem effect_commandWith (P : Params) {i : Instr} {s : State} (h : s.operandsValid i = true) :
    Effect P s i (commandWith P i s) := by
  cases i with
  | rpaAssemble => exact .rpaAssemble h
  | lprngNew => rw [commandWith, lprngNew, State.require_of_valid _ _ _ h]; exact .lprngNew
  | lprngDraw => rw [commandWith, lprngDraw, State.require_of_valid _ _ _ h]; exact .lprngDraw
  | kdDerive => rw [commandWith, kdDerive, State.require_of_valid _ _ _ h]; exact .kdDerive
  | ddpDecodePU => rw [commandWith, ddpDecodePU, State.require_of_valid _ _ _ h]; exact .ddpDecode false false
  | ddpDecodePC => rw [commandWith, ddpDecodePC, State.require_of_valid _ _ _ h]; exact .ddpDecode false true
  | ddpDecodeKU => rw [commandWith, ddpDecodeKU, State.require_of_valid _ _ _ h]; exact .ddpDecode true false
  | ddpDecodeKC => rw [commandWith, ddpDecodeKC, State.require_of_valid _ _ _ h]; exact .ddpDecode true true
  | secRunPU => rw [commandWith, secRunPU, State.require_of_valid _ _ _ h]; exact .secRun false false
  | secRunPC => rw [commandWith, secRunPC, State.require_of_valid _ _ _ h]; exact .secRun false true
  | secRunDU => rw [commandWith, secRunDU, State.require_of_valid _ _ _ h]; exact .secRun true false
  | secRunDC => rw [commandWith, secRunDC, State.require_of_valid _ _ _ h]; exact .secRun true true

/-- A command whose `require` line passes has that effect alone. -/
theorem Effect.eq_commandWith {P : Params} {i : Instr} {s t : State} (h : Effect P s i t)
    (hvalid : s.operandsValid i = true) : t = commandWith P i s := by
  cases h with
  | lprngNew => rw [commandWith, Machine.lprngNew, State.require_of_valid _ _ _ hvalid]
  | lprngDraw => rw [commandWith, Machine.lprngDraw, State.require_of_valid _ _ _ hvalid]
  | kdDerive => rw [commandWith, Machine.kdDerive, State.require_of_valid _ _ _ hvalid]
  | rpaAssemble _ => rfl
  | ddpDecode keyed comp =>
    rw [s.operandsValid_ddpInstr, Bool.and_eq_true] at hvalid
    obtain ⟨hin, hkey⟩ := hvalid
    exact (commandWith_ddpInstr P keyed comp s hin fun hk => by simpa [hk] using hkey).symm
  | secRun dist comp =>
    rw [s.operandsValid_secInstr, Bool.and_eq_true] at hvalid
    obtain ⟨hin, hver⟩ := hvalid
    exact (commandWith_secInstr P dist comp s hin hver).symm

/-- Every command is an effect behind its `require` line (R296). -/
theorem commandWith_eq_require (P : Params) (i : Instr) : ∃ f, ∀ s, commandWith P i s = s.require i f := by
  cases i <;> exact ⟨_, fun _ => rfl⟩

/-- A command whose `require` line fails is refused, under any parameters (R296). -/
theorem commandWith_of_operandsInvalid (P : Params) {i : Instr} {s : State} (h : s.operandsValid i = false) :
    commandWith P i s = s.refuse .useBeforeWrite := by
  obtain ⟨f, hf⟩ := commandWith_eq_require P i
  rw [hf, State.require_of_invalid _ _ _ h]

theorem Effect.frame {P : Params} {i : Instr} {s t : State} (h : Effect P s i t) : Frame i s t := by
  cases h with
  | lprngNew => exact frame_lprngNew s
  | lprngDraw => exact frame_lprngDraw P s
  | kdDerive => exact frame_kdDerive P s
  | ddpDecode keyed comp => exact frame_ddpDecode P keyed comp s
  | rpaAssemble h => exact frame_rpaAssemble P h
  | secRun dist comp => exact frame_secRun P dist comp s

/-- Every command keeps its frame, refused or not. -/
theorem frame_commandWith (P : Params) (i : Instr) (s : State) : Frame i s (commandWith P i s) := by
  cases h : s.operandsValid i with
  | true => exact (effect_commandWith P h).frame
  | false =>
    rw [commandWith_of_operandsInvalid P h]
    exact frame_refuse i s

/-- The bytes of memory are those of the four spaces (R31). -/
theorem State.byteAt_congr {s t : State} (hob : t.ob = s.ob) (hkey : t.key = s.key) (hinp : t.inp = s.inp)
    (hplain : t.plain = s.plain) (p : Space) (a : Nat) : t.byteAt p a = s.byteAt p a := by
  cases p <;> simp [State.byteAt, State.spaceBytes, hob, hkey, hinp, hplain]

/-- Settles O56: the frame of the command, and the bytes that follow from it. -/
theorem commandsWriteOnlyTheirState : Obligations.CommandsWriteOnlyTheirState := by
  unfold Obligations.CommandsWriteOnlyTheirState
  intro i s
  have hframe := frame_commandWith Config.params i s
  obtain ⟨-, -, -, -, hinp, -, -⟩ := hframe.host
  refine ⟨_, exec_eq_commandWith i s, hframe.host, hframe.res, hframe.ob, hframe.prng, hframe.key, hframe.fsm,
    hframe.quiet, hframe.stream, hframe.decode, fun hi => ?_, fun p a hp => ?_⟩
  · have hob := hframe.ob (by simp at hi; obtain rfl | rfl | rfl := hi <;> decide)
    have hkey := hframe.key (by simp at hi; obtain rfl | rfl | rfl := hi <;> decide)
    have hstream := hframe.stream (by simp at hi; obtain rfl | rfl | rfl := hi <;> rfl)
    exact State.byteAt_congr hob.1 hkey hinp hstream.2.2
  · subst hp
    simp only [State.byteAt, State.spaceBytes, hinp]

end Sys2Proof.Machine
end

section
/-! PROOFS. The errors a command may leave (spec/60_exceptions.md R281, R300, R302), what it consumes (R331, R336,
R337), and the invariant between commands. -/

namespace Sys2Proof.Machine

/-! ### The errors of a command -/

/-- A command that owns `ERR` clears it first, so what it leaves does not depend on what stood there (R304). -/
theorem possibleErr_congr {i : Instr} (h : ownsErr i = true) (e e' : BitVec 6) :
    possibleErr e i = possibleErr e' i := by
  cases i with
  | lprngNew | lprngDraw | kdDerive => cases h
  | _ => rfl

/-- Every command that owns `ERR` can complete (R281). -/
theorem zero_mem_possibleErr {i : Instr} (h : ownsErr i = true) (e : BitVec 6) : 0#6 ∈ possibleErr e i := by
  cases i with
  | lprngNew | lprngDraw | kdDerive => cases h
  | _ => exact List.mem_cons_self

/-- What a command can leave after an `ERR` of the table of causes is in that table (R281). -/
theorem mem_legalErr_of_possibleErr {i : Instr} {e e' : BitVec 6} (he : e ∈ legalErr) (h : e' ∈ possibleErr e i) :
    e' ∈ legalErr := by
  have hrow : ∀ e ∈ possibleErr 0#6 i, e ∈ legalErr := by cases i <;> decide
  cases howns : ownsErr i with
  | true =>
    rw [possibleErr_congr howns e 0#6] at h
    exact hrow e' h
  | false =>
    have hkept : possibleErr e i = [e] := by
      cases i with
      | lprngNew | lprngDraw | kdDerive => rfl
      | _ => cases howns
    rw [hkept, List.mem_singleton] at h
    rwa [h]

theorem ownsErr_ddpInstr (keyed comp : Bool) : ownsErr (ddpInstr keyed comp) = true := by
  cases keyed <;> cases comp <;> rfl

theorem ownsErr_secInstr (dist comp : Bool) : ownsErr (secInstr dist comp) = true := by
  cases dist <;> cases comp <;> rfl

/-- A command leaves only an error of its row in `ERR` (R281). -/
theorem Effect.err_mem {P : Params} {i : Instr} {s t : State} (h : Effect P s i t) : t.err ∈ possibleErr s.err i := by
  cases h with
  | lprngNew | lprngDraw | kdDerive => exact List.mem_singleton.mpr rfl
  | ddpDecode keyed comp =>
    rw [possibleErr_congr (ownsErr_ddpInstr keyed comp) s.err 0#6]
    obtain ⟨e, he, heq⟩ | ⟨plain, heq⟩ := ddpDecode_cases P keyed comp s
    · rw [heq]
      exact he
    · rw [heq]
      exact zero_mem_possibleErr (ownsErr_ddpInstr keyed comp) _
  | rpaAssemble h =>
    obtain heq | ⟨out, heq⟩ := rpaAssemble_cases P h
    · rw [heq]
      exact List.mem_cons_of_mem _ List.mem_cons_self
    · rw [heq]
      exact List.mem_cons_self
  | secRun dist comp =>
    rw [possibleErr_congr (ownsErr_secInstr dist comp) s.err 0#6]
    obtain ⟨u, n, plain, -, ⟨ps, -, -, heq⟩ | ⟨g, k, -, he, -, heq⟩⟩ := runEnds P dist comp s
    · rw [heq]
      exact zero_mem_possibleErr (ownsErr_secInstr dist comp) _
    · rw [heq]
      exact he

/-- Settles O54: a command whose operands are valid has its unit's effect, and that raises only errors of its row. -/
theorem commandsRaiseOnlyTheirErrors : Obligations.CommandsRaiseOnlyTheirErrors := by
  unfold Obligations.CommandsRaiseOnlyTheirErrors
  exact fun i s hvalid => ⟨_, exec_eq_commandWith i s, (effect_commandWith _ hvalid).err_mem⟩

/-! ### After an error -/

/-- After an error nothing of `OUT`, `PLAIN`, `IN` and `KEY` can be read, and a SEC.RUN has failed (R300). -/
theorem Effect.cleared_of_err {P : Params} {i : Instr} {s t : State} (h : Effect P s i t) (howns : ownsErr i = true)
    (herr : t.err ≠ 0#6) :
    t.valid .OUT = false ∧ t.valid .PLAIN = false ∧ t.valid .IN = false ∧ t.valid .KEY = false ∧
      t.fsm = if isSecRun i then 6#3 else s.fsm := by
  cases h with
  | lprngNew | lprngDraw | kdDerive => cases howns
  | ddpDecode keyed comp =>
    have hsec : isSecRun (ddpInstr keyed comp) = false := by cases keyed <;> cases comp <;> rfl
    obtain ⟨e, -, heq⟩ | ⟨plain, heq⟩ := ddpDecode_cases P keyed comp s
    · rw [heq, hsec]
      refine ⟨?_, ?_, ?_, ?_, rfl⟩ <;> simp
    · rw [heq] at herr
      exact absurd rfl herr
  | rpaAssemble h =>
    obtain heq | ⟨out, heq⟩ := rpaAssemble_cases P h
    · rw [heq]
      refine ⟨?_, ?_, ?_, ?_, rfl⟩ <;> simp
    · rw [heq] at herr
      exact absurd rfl herr
  | secRun dist comp =>
    have hsec : isSecRun (secInstr dist comp) = true := by cases dist <;> cases comp <;> rfl
    obtain ⟨u, n, plain, -, ⟨ps, -, -, heq⟩ | ⟨g, k, -, -, -, heq⟩⟩ := runEnds P dist comp s
    · rw [heq] at herr
      exact absurd rfl herr
    · rw [heq, hsec]
      refine ⟨?_, ?_, ?_, ?_, rfl⟩ <;> simp

/-- Settles O55: the error entry clears the bits, and the rest is in the command's frame. -/
theorem errorLeavesNothingToRead : Obligations.ErrorLeavesNothingToRead := by
  unfold Obligations.ErrorLeavesNothingToRead
  intro i s howns hvalid
  refine ⟨_, exec_eq_commandWith i s, fun herr => ?_⟩
  obtain ⟨hout, hplain, hin, hkey, hfsm⟩ := (effect_commandWith _ hvalid).cleared_of_err howns herr
  have hframe := frame_commandWith Config.params i s
  obtain ⟨harg, hargv, hver, hverv, -⟩ := hframe.host
  obtain ⟨hres, hresv⟩ := hframe.res (by rintro rfl; cases howns)
  exact ⟨commandWith_cst_of_operandsValid _ i s hvalid, hout, hplain, hin, hkey, hfsm, hargv, harg, hresv, hres, hverv,
    hver⟩

/-! ### What a command consumes -/

/-- A command that read `IN` leaves it invalid, completed or failed (R336). -/
theorem Effect.valid_in {P : Params} {i : Instr} {s t : State} (h : Effect P s i t) (hreads : readsStream i = true) :
    t.valid .IN = false := by
  cases h with
  | lprngNew | lprngDraw | kdDerive | rpaAssemble => cases hreads
  | ddpDecode keyed comp =>
    obtain ⟨e, -, heq⟩ | ⟨plain, heq⟩ := ddpDecode_cases P keyed comp s
    · simp [heq]
    · simp [heq]
  | secRun dist comp =>
    obtain ⟨u, n, plain, -, ⟨ps, -, -, heq⟩ | ⟨g, k, -, -, -, heq⟩⟩ := runEnds P dist comp s
    · simp [heq]
    · simp [heq]

/-- A command that reads `IN` requires it (R296). -/
theorem State.operandsValid_of_in_invalid {i : Instr} {s : State} (hreads : readsStream i = true)
    (hin : s.valid .IN = false) : s.operandsValid i = false := by
  cases i <;> simp_all [readsStream, State.operandsValid, requiredItems]

/-- Settles O30: the command invalidates `IN`, which the same command requires. -/
theorem streamIsConsumed : Obligations.StreamIsConsumed := by
  unfold Obligations.StreamIsConsumed
  intro i s hreads hvalid
  have hin := (effect_commandWith Config.params hvalid).valid_in hreads
  exact ⟨_, exec_eq_commandWith i s, hin,
    exec_of_operandsInvalid i _ (State.operandsValid_of_in_invalid hreads hin)⟩

/-- Settles O22: the derivation retires `S`, which a draw requires. -/
theorem derivationLosesPrngState : Obligations.DerivationLosesPrngState := by
  unfold Obligations.DerivationLosesPrngState
  intro s hob
  have hspent : ((s.keyDerivation Config.params).setCst .ok).valid .S = false := by simp [State.keyDerivation]
  exact ⟨_, exec_kdDerive_of_valid s hob, hspent,
    exec_of_operandsInvalid _ _ ((State.operandsValid_lprngDraw _).trans hspent)⟩

/-- Settles O23: the block is in the derivation's frame, and the key is a function of the block. -/
theorem secondDerivationGivesSameKey : Obligations.SecondDerivationGivesSameKey := by
  unfold Obligations.SecondDerivationGivesSameKey
  intro s hob
  have hob' : ((s.keyDerivation Config.params).setCst .ok).valid .OB = true := by simp [State.keyDerivation, hob]
  refine ⟨_, _, exec_kdDerive_of_valid s hob, exec_kdDerive_of_valid _ hob', rfl, hob', ?_⟩
  simp [State.keyDerivation]

/-- Settles O40: the splitting is what the record loop answers. -/
theorem recordsOfStreamAreUnique : Obligations.RecordsOfStreamAreUnique := by
  unfold Obligations.RecordsOfStreamAreUnique
  intro P ver plain ps qs hps hqs
  rw [← assemble_eq_some_iff] at hps hqs
  exact Option.some.inj (hps.symm.trans hqs)

/-! ### The invariant between commands -/

/-- The cursor stays inside the stream: a command leaves it, or puts it at the end or past a header that was there. -/
theorem Effect.cursor_bound {P : Params} {i : Instr} {s t : State} (h : Effect P s i t)
    (hcur : s.icur ≤ s.inp.length) : t.icur ≤ t.inp.length := by
  obtain ⟨-, -, -, -, hinp, -, -⟩ := h.frame.host
  rw [hinp]
  cases h with
  | lprngNew | lprngDraw | kdDerive => exact hcur
  | ddpDecode keyed comp =>
    have hend := (State.icur_add_streamAvail hcur).le
    obtain ⟨e, -, heq⟩ | ⟨plain, heq⟩ := ddpDecode_cases P keyed comp s
    · rw [heq]
      exact hend
    · rw [heq]
      exact hend
  | rpaAssemble h =>
    obtain heq | ⟨out, heq⟩ := rpaAssemble_cases P h
    · rw [heq]
      exact hcur
    · rw [heq]
      exact hcur
  | secRun dist comp =>
    obtain ⟨u, n, plain, hn, ⟨ps, -, -, heq⟩ | ⟨g, k, -, -, -, heq⟩⟩ := runEnds P dist comp s
    · rw [heq]
      exact hn hcur
    · rw [heq]
      exact hn hcur

/-- A command leaves `FSM` alone or ends its run (R24, R250). -/
theorem Effect.fsm_rests {P : Params} {i : Instr} {s t : State} (h : Effect P s i t)
    (hfsm : s.fsm = 0#3 ∨ s.fsm = 5#3 ∨ s.fsm = 6#3) : t.fsm = 0#3 ∨ t.fsm = 5#3 ∨ t.fsm = 6#3 := by
  cases hsec : isSecRun i with
  | false => rwa [h.frame.fsm hsec]
  | true =>
    cases h with
    | lprngNew | lprngDraw | kdDerive | rpaAssemble => cases hsec
    | ddpDecode keyed comp => exact absurd hsec (by cases keyed <;> cases comp <;> decide)
    | secRun dist comp =>
      obtain ⟨u, n, plain, -, ⟨ps, -, -, heq⟩ | ⟨g, k, -, -, -, heq⟩⟩ := runEnds P dist comp s
      · exact .inr (.inl (heq ▸ rfl))
      · exact .inr (.inr (heq ▸ rfl))

/-- `RES` changes by a draw alone, which is below 2^16 (R22, R116). -/
theorem Effect.res_bound {P : Params} {i : Instr} {s t : State} (h : Effect P s i t)
    (hres : s.regRes.toNat < 2 ^ 16) : t.regRes.toNat < 2 ^ 16 := by
  by_cases hi : i = .lprngDraw
  · subst hi
    generalize hj : Instr.lprngDraw = j at h
    cases h with
    | lprngDraw => exact lprngOut_lt P _
    | lprngNew | kdDerive | rpaAssemble => cases hj
    | ddpDecode keyed comp => cases keyed <;> cases comp <;> cases hj
    | secRun dist comp => cases dist <;> cases comp <;> cases hj
  · rwa [(h.frame.res hi).1]

/-- After an error there is no section (R302): a command that owns `ERR` clears `OUT` with its error, and another leaves
both as they were. -/
theorem Effect.no_partial_output {P : Params} {i : Instr} {s t : State} (h : Effect P s i t)
    (hout : s.err ≠ 0#6 → s.valid .OUT = false) (herr : t.err ≠ 0#6) : t.valid .OUT = false := by
  cases howns : ownsErr i with
  | true => exact (h.cleared_of_err howns herr).1
  | false =>
    obtain ⟨heq, -, -, hvalid, -⟩ := h.frame.quiet howns
    rw [hvalid]
    exact hout (heq ▸ herr)

/-- A state whose fields that the invariant speaks of are those of a state that meets it. -/
theorem State.Inv.of_eq {s t : State} (h : s.Inv) (hfsm : t.fsm = s.fsm) (herr : t.err = s.err) (hcst : t.cst ≠ 3#2)
    (hres : t.regRes = s.regRes) (hcur : t.icur ≤ t.inp.length) (hout : t.valid .OUT = s.valid .OUT) : t.Inv where
  fsm_rests := hfsm ▸ h.fsm_rests
  err_legal := herr ▸ h.err_legal
  cst_legal := hcst
  res_bound := hres ▸ h.res_bound
  cursor_bound := hcur
  no_partial_output := herr ▸ hout ▸ h.no_partial_output

/-- A refusal keeps the invariant: it writes `CST` alone, and no reason has code 3 (R28, R296). -/
theorem State.Inv.refuse {s : State} (h : s.Inv) (reason : Status) : (s.refuse reason).Inv :=
  h.of_eq rfl rfl (by rw [State.refuse_cst]; cases reason <;> decide) rfl h.cursor_bound rfl

/-- Every command keeps the invariant. -/
theorem State.Inv.commandWith {s : State} (h : s.Inv) (P : Params) (i : Instr) : (commandWith P i s).Inv := by
  cases hvalid : s.operandsValid i with
  | false =>
    rw [commandWith_of_operandsInvalid P hvalid]
    exact h.refuse _
  | true =>
    have heffect := effect_commandWith P hvalid
    have hcst := commandWith_cst_of_operandsValid P i s hvalid
    exact ⟨heffect.fsm_rests h.fsm_rests, mem_legalErr_of_possibleErr h.err_legal heffect.err_mem,
      by rw [hcst]; decide, heffect.res_bound h.res_bound, heffect.cursor_bound h.cursor_bound,
      heffect.no_partial_output h.no_partial_output⟩

/-- Settles O57: at reset every field the invariant speaks of is 0 or empty. -/
theorem invariantHoldsAtReset : Obligations.InvariantHoldsAtReset := by
  unfold Obligations.InvariantHoldsAtReset
  exact ⟨.inl rfl, List.mem_cons_self, by decide, by decide, Nat.le_refl 0, fun _ => State.reset_valid _⟩

/-- Every host operation keeps the invariant. -/
theorem State.Inv.hostOp {s t : State} (h : s.Inv) {op : HostOp} (hop : hostOp op s = .next t) : t.Inv := by
  cases op with
  | issue c =>
    obtain ⟨i, hissue⟩ | hissue := issueCommand_cases c s
    · obtain rfl := Host.Outcome.next.inj (hissue.symm.trans hop)
      exact h.commandWith _ i
    · obtain rfl := Host.Outcome.next.inj (hissue.symm.trans hop)
      exact h.refuse _
  | reset =>
    cases hop
    exact invariantHoldsAtReset.of_eq rfl rfl (show 0#2 ≠ 3#2 by decide) rfl (Nat.le_refl 0) rfl
  | loadIN b =>
    cases hop
    exact h.of_eq rfl rfl h.cst_legal rfl (Nat.zero_le _) (by simp)
  | writeARG | setVER | loadOB | loadKEY | clearKEY | loadPLAIN | readReg | readKEY | readPLAIN | readOUT =>
    cases hop
    exact h.of_eq rfl rfl h.cst_legal rfl h.cursor_bound (by simp)

/-- Settles O58: a step is idle, or one host operation on the state with that request taken. -/
theorem stepKeepsInvariant : Obligations.StepKeepsInvariant := by
  unfold Obligations.StepKeepsInvariant
  intro s t hinv hstep
  cases hq : s.hostq with
  | nil =>
    rw [step_of_hostq_nil hq] at hstep
    cases hstep
    exact hinv
  | cons op q =>
    rw [step_of_hostq hq] at hstep
    have htaken : State.Inv { s with hostq := q } := hinv.of_eq rfl rfl hinv.cst_legal rfl hinv.cursor_bound rfl
    exact htaken.hostOp hstep

end Sys2Proof.Machine
end

section
/-! PROOFS. Nothing behind a clear validity bit is read (spec/00_scope.md R11, U43): every operation of R11, every end of
a unit and so every command takes states that agree on what is valid to states that agree. -/

namespace Sys2Proof.Machine

section
variable {s t : State} (h : s.Agree t)
include h

/-- States that agree have the same valid items. -/
theorem State.Agree.valid_eq (a : Item) : s.valid a = t.valid a := by
  simp only [State.valid, h.vld]

theorem State.Agree.operandsValid_eq (i : Instr) : s.operandsValid i = t.operandsValid i := by
  simp only [State.operandsValid, funext h.valid_eq]

/-! ### Writes, invalidations and answers -/

theorem State.Agree.setCst (c : Status) : (s.setCst c).Agree (t.setCst c) := by
  cases h; constructor <;> simp_all

theorem State.Agree.invalidate (a : Item) : (s.invalidate a).Agree (t.invalidate a) := by
  cases h; constructor <;> simp_all

theorem State.Agree.answer {v w : Option HostValue} (hvw : v = w) : (s.answer v).Agree (t.answer w) := by
  cases h; constructor <;> simp_all

theorem State.Agree.withHostq (q : List HostOp) : State.Agree { s with hostq := q } { t with hostq := q } := by
  cases h; constructor <;> simp_all [State.valid]

theorem State.Agree.writeS (v : Word) : (s.writeS v).Agree (t.writeS v) := by
  cases h; constructor <;> simp_all

theorem State.Agree.writeArg (v : Word) : (s.writeArg v).Agree (t.writeArg v) := by
  cases h; constructor <;> simp_all

theorem State.Agree.writeRes (v : Word) : (s.writeRes v).Agree (t.writeRes v) := by
  cases h; constructor <;> simp_all

theorem State.Agree.writeVer (v : Version) : (s.writeVer v).Agree (t.writeVer v) := by
  cases h; constructor <;> simp_all

theorem State.Agree.writeOB (b : Vector Byte 256) : (s.writeOB b).Agree (t.writeOB b) := by
  cases h; constructor <;> simp_all

theorem State.Agree.writeKey (b : Vector Byte 16) : (s.writeKey b).Agree (t.writeKey b) := by
  cases h; constructor <;> simp_all

theorem State.Agree.writeIn (b : List Byte) : (s.writeIn b).Agree (t.writeIn b) := by
  cases h; constructor <;> simp_all

theorem State.Agree.writePlain (b : List Byte) : (s.writePlain b).Agree (t.writePlain b) := by
  cases h; constructor <;> simp_all

/-! ### The ends of the units -/

/-- Ends of a unit that agree where the unit wrote, built on states that agree, agree. -/
theorem State.Agree.of_unitEnd {s' t' : State} (hs : UnitEnd s s') (ht : UnitEnd t t') (hfsm : s'.fsm = t'.fsm)
    (herr : s'.err = t'.err) (hcst : s'.cst = t'.cst) (hmode : s'.mode = t'.mode) (hvld : s'.vld = t'.vld)
    (hkey : s'.valid .KEY = true → s.valid .KEY = true)
    (hin : s'.valid .IN = true → s.valid .IN = true ∧ s'.icur = t'.icur)
    (hplain : s'.valid .PLAIN = true → s'.plain = t'.plain) (hout : s'.valid .OUT = true → s'.out = t'.out) :
    s'.Agree t' where
  fsm := hfsm
  err := herr
  cst := hcst
  mode := hmode
  vld := hvld
  hostq := by rw [hs.hostq, ht.hostq, h.hostq]
  reply := by rw [hs.reply, ht.reply, h.reply]
  regS hv := by rw [hs.regS, ht.regS, h.regS (hs.valid .S (by simp) ▸ hv)]
  regArg hv := by rw [hs.regArg, ht.regArg, h.regArg (hs.valid .ARG (by simp) ▸ hv)]
  regRes hv := by rw [hs.regRes, ht.regRes, h.regRes (hs.valid .RES (by simp) ▸ hv)]
  ver hv := by rw [hs.ver, ht.ver, h.ver (hs.valid .VER (by simp) ▸ hv)]
  ob hv := by rw [hs.ob, ht.ob, h.ob (hs.valid .OB (by simp) ▸ hv)]
  key hv := by rw [hs.key, ht.key, h.key (hkey hv)]
  inp hv := by rw [hs.inp, ht.inp, h.inp (hin hv).1]
  icur hv := (hin hv).2
  plain := hplain
  out := hout

/-- Where a failed decode leaves the cursor stands behind the clear bit of `IN` (R23). -/
theorem State.Agree.decodeFailed (m : BitVec 2) (e : BitVec 6) (n n' : Nat) :
    (s.decodeFailed m e n).Agree (t.decodeFailed m e n') :=
  h.of_unitEnd (unitEnd_decodeFailed ..) (unitEnd_decodeFailed ..) h.fsm rfl rfl rfl
    (by simp only [State.decodeFailed, h.vld]) (by simp) (by simp) (by simp) (by simp)

theorem State.Agree.decodeDone (keyed : Bool) (m : BitVec 2) (n : Nat) (plain : List Byte) :
    (s.decodeDone keyed m n plain).Agree (t.decodeDone keyed m n plain) :=
  h.of_unitEnd (unitEnd_decodeDone ..) (unitEnd_decodeDone ..) h.fsm rfl rfl rfl
    (by simp only [State.decodeDone, h.vld]) (by simp +contextual) (by simp) (fun _ => rfl)
    fun hv => h.out (by simpa using hv)

theorem State.Agree.assembled (out : List Paragraph) : (s.assembled out).Agree (t.assembled out) :=
  h.of_unitEnd (unitEnd_assembled ..) (unitEnd_assembled ..) h.fsm rfl rfl h.mode
    (by simp only [State.assembled, h.vld]) (by simp)
    (fun hv => have hin : s.valid .IN = true := by simpa using hv
      ⟨hin, h.icur hin⟩)
    (by simp) fun _ => rfl

/-- What a failed run leaves in `PLAIN`, and its cursor, stand behind clear bits (log entry 4). -/
theorem State.Agree.runFailed (m : BitVec 2) (e : BitVec 6) (n n' : Nat) (plain plain' : List Byte) :
    (s.runFailed m e n plain).Agree (t.runFailed m e n' plain') :=
  h.of_unitEnd (unitEnd_runFailed ..) (unitEnd_runFailed ..) rfl rfl rfl rfl
    (by simp only [State.runFailed, h.vld]) (by simp) (by simp) (by simp) (by simp)

theorem State.Agree.runDone (m : BitVec 2) (n n' : Nat) (plain : List Byte) (out : List Paragraph) :
    (s.runDone m n plain out).Agree (t.runDone m n' plain out) :=
  h.of_unitEnd (unitEnd_runDone ..) (unitEnd_runDone ..) rfl rfl rfl rfl
    (by simp only [State.runDone, h.vld]) (by simp) (by simp) (by simp) fun _ => rfl

theorem State.Agree.keySpent (P : Params) (ob : Vector Byte 256) : (s.keySpent P ob).Agree (t.keySpent P ob) := by
  have hvld : (s.keySpent P ob).vld = (t.keySpent P ob).vld := by simp only [State.keySpent, h.vld]
  exact ⟨h.fsm, h.err, h.cst, h.mode, hvld, h.hostq, h.reply, fun _ => rfl, fun hv => h.regArg (by simpa using hv),
    fun hv => h.regRes (by simpa using hv), fun hv => h.ver (by simpa using hv), fun _ => rfl, fun _ => rfl,
    fun hv => h.inp (by simpa using hv), fun hv => h.icur (by simpa using hv), fun hv => h.plain (by simpa using hv),
    fun hv => h.out (by simpa using hv)⟩

theorem State.Agree.keyDerivation (P : Params) (hob : s.valid .OB = true) :
    (s.keyDerivation P).Agree (t.keyDerivation P) := by
  simp only [State.keyDerivation, h.ob hob]
  exact ((h.writeS _).writeKey _).invalidate .S

/-! ### The commands -/

/-- A decode reads `IN` and, with a key, `KEY`. -/
theorem State.Agree.ddpDecode (P : Params) (keyed comp : Bool) (hin : s.valid .IN = true)
    (hkey : keyed = true → s.valid .KEY = true) : (ddpDecode P keyed comp s).Agree (ddpDecode P keyed comp t) := by
  have hinp := h.inp hin
  have hicur := h.icur hin
  have havail : s.streamAvail = t.streamAvail := by simp only [State.streamAvail, hinp, hicur]
  have hplaintext : ddpPlaintext P keyed s = ddpPlaintext P keyed t := by
    cases keyed with
    | false => simp [ddpPlaintext, hinp, hicur]
    | true => simp [ddpPlaintext, hinp, hicur, h.key (hkey rfl)]
  by_cases haligned : keyed = true → (s.inp.drop s.icur).length % 16 = 0
  · have haligned' : keyed = true → (t.inp.drop t.icur).length % 16 = 0 := by rwa [← hinp, ← hicur]
    cases hrec : recordStreamOf P comp (ddpPlaintext P keyed s) with
    | error e =>
      rw [ddpDecode_of_not_inflated haligned hrec, ddpDecode_of_not_inflated haligned' (hplaintext ▸ hrec), hicur,
        havail]
      exact h.decodeFailed _ _ _ _
    | ok plain =>
      rw [ddpDecode_of_inflated haligned hrec, ddpDecode_of_inflated haligned' (hplaintext ▸ hrec), hicur,
        havail]
      exact h.decodeDone _ _ _ _
  · obtain ⟨rfl, hmis⟩ := Classical.not_imp.mp haligned
    have hmis' : (t.inp.drop t.icur).length % 16 ≠ 0 := by rwa [← hinp, ← hicur]
    rw [ddpDecode_of_misaligned hmis, ddpDecode_of_misaligned hmis', hicur, havail]
    exact h.decodeFailed _ _ _ _

/-- An assembly reads `PLAIN` and `VER`. -/
theorem State.Agree.rpaAssemble (P : Params) (hplain : s.valid .PLAIN = true) (hver : s.valid .VER = true) :
    (commandWith P .rpaAssemble s).Agree (commandWith P .rpaAssemble t) := by
  have hplain' : t.valid .PLAIN = true := h.valid_eq _ ▸ hplain
  have hver' : t.valid .VER = true := h.valid_eq _ ▸ hver
  have hsame : assemble P t.ver t.plain = assemble P s.ver s.plain := by rw [h.plain hplain, h.ver hver]
  cases hasm : assemble P s.ver s.plain with
  | none =>
    rw [commandWith_rpaAssemble_of_not_assembled hplain hver hasm,
      commandWith_rpaAssemble_of_not_assembled hplain' hver' (hsame.trans hasm), h.mode]
    exact h.decodeFailed _ _ _ _
  | some out =>
    rw [commandWith_rpaAssemble_of_assembled hplain hver hasm,
      commandWith_rpaAssemble_of_assembled hplain' hver' (hsame.trans hasm)]
    exact h.assembled out

/-- A plain run reads `IN` and `VER`. -/
theorem State.Agree.secRun_plain (P : Params) (comp : Bool) (hin : s.valid .IN = true) (hver : s.valid .VER = true) :
    (secRun P false comp s).Agree (secRun P false comp t) := by
  have hrest : t.inp.drop t.icur = s.inp.drop s.icur := by rw [h.inp hin, h.icur hin]
  cases hrec : recordStreamOf P comp (s.inp.drop s.icur) with
  | error e =>
    rw [secRun_plain_of_not_inflated hrec, secRun_plain_of_not_inflated (hrest ▸ hrec)]
    exact h.runFailed _ _ _ _ _ _
  | ok plain =>
    have hrec' : recordStreamOf P comp (t.inp.drop t.icur) = .ok plain := by rw [hrest, hrec]
    cases hasm : assemble P s.ver plain with
    | none =>
      rw [secRun_plain_of_not_assembled hrec hasm, secRun_plain_of_not_assembled hrec' (h.ver hver ▸ hasm)]
      exact h.runFailed _ _ _ _ _ _
    | some ps =>
      rw [secRun_plain_of_assembled hrec hasm, secRun_plain_of_assembled hrec' (h.ver hver ▸ hasm)]
      exact h.runDone _ _ _ _ _

/-- A distributed run past its leading record reads `IN` and `VER`. -/
theorem State.Agree.secRun_accepted {P : Params} (comp : Bool) {hd : Header} (hin : s.valid .IN = true)
    (hver : s.valid .VER = true) (hacc : Accepted P hd (s.inp.drop s.icur)) :
    (secRun P true comp s).Agree (secRun P true comp t) := by
  have hrest : t.inp.drop t.icur = s.inp.drop s.icur := by rw [h.inp hin, h.icur hin]
  have hacc' : Accepted P hd (t.inp.drop t.icur) := hrest ▸ hacc
  by_cases haligned : ((s.inp.drop s.icur).drop (hd.hlen + 256)).length % 16 = 0
  · have haligned' : ((t.inp.drop t.icur).drop (hd.hlen + 256)).length % 16 = 0 := hrest ▸ haligned
    cases hrec : recordStreamOf P comp (distPlaintext P hd (s.inp.drop s.icur)) with
    | error e =>
      rw [secRun_dist_of_not_inflated hacc haligned hrec,
        secRun_dist_of_not_inflated hacc' haligned' (hrest ▸ hrec), hrest]
      exact (h.keySpent P _).runFailed _ _ _ _ _ _
    | ok plain =>
      have hrec' : recordStreamOf P comp (distPlaintext P hd (t.inp.drop t.icur)) = .ok plain := by rw [hrest, hrec]
      cases hasm : assemble P s.ver plain with
      | none =>
        rw [secRun_dist_of_not_assembled hacc haligned hrec hasm,
          secRun_dist_of_not_assembled hacc' haligned' hrec' (h.ver hver ▸ hasm), hrest]
        exact (h.keySpent P _).runFailed _ _ _ _ _ _
      | some ps =>
        rw [secRun_dist_of_assembled hacc haligned hrec hasm,
          secRun_dist_of_assembled hacc' haligned' hrec' (h.ver hver ▸ hasm), hrest]
        exact (h.keySpent P _).runDone _ _ _ _ _
  · rw [secRun_dist_of_misaligned hacc comp haligned, secRun_dist_of_misaligned hacc' comp (hrest ▸ haligned), hrest]
    exact (h.keySpent P _).runFailed _ _ _ _ _ _

/-- A run reads `IN` and `VER`. -/
theorem State.Agree.secRun (P : Params) (dist comp : Bool) (hin : s.valid .IN = true) (hver : s.valid .VER = true) :
    (secRun P dist comp s).Agree (secRun P dist comp t) := by
  have hrest : t.inp.drop t.icur = s.inp.drop s.icur := by rw [h.inp hin, h.icur hin]
  cases dist with
  | false => exact h.secRun_plain P comp hin hver
  | true =>
    obtain hf | ⟨hd, hf, hbad | ⟨htag, hsize, hcut⟩ | hacc⟩ := leadingRecord_cases P (s.inp.drop s.icur)
    · rw [secRun_dist_of_no_header comp hf, secRun_dist_of_no_header comp (hrest ▸ hf)]
      exact h.runFailed _ _ _ _ _ _
    · rw [secRun_dist_of_malformed comp hf hbad, secRun_dist_of_malformed comp (hrest ▸ hf) hbad]
      exact h.runFailed _ _ _ _ _ _
    · rw [secRun_dist_of_cut_payload comp hf htag hsize hcut,
        secRun_dist_of_cut_payload comp (hrest ▸ hf) htag hsize (hrest ▸ hcut)]
      exact h.runFailed _ _ _ _ _ _
    · exact h.secRun_accepted comp hin hver hacc

/-- The same effect on states that agree, when the operands are valid: each unit reads its own operands alone (R296). -/
theorem Effect.agree {P : Params} {i : Instr} {s' : State} (heffect : Effect P s i s')
    (hvalid : s.operandsValid i = true) : ∃ t', Effect P t i t' ∧ s'.Agree t' := by
  cases heffect with
  | lprngNew =>
    have harg : s.regArg = t.regArg := h.regArg (s.operandsValid_lprngNew ▸ hvalid)
    exact ⟨_, .lprngNew, harg ▸ (h.writeS _).setCst .ok⟩
  | lprngDraw =>
    have hS : s.regS = t.regS := h.regS (s.operandsValid_lprngDraw ▸ hvalid)
    exact ⟨_, .lprngDraw, hS ▸ ((h.writeS _).writeRes _).setCst .ok⟩
  | kdDerive => exact ⟨_, .kdDerive, (h.keyDerivation P (s.operandsValid_kdDerive ▸ hvalid)).setCst .ok⟩
  | ddpDecode keyed comp =>
    rw [s.operandsValid_ddpInstr, Bool.and_eq_true] at hvalid
    obtain ⟨hin, hkey⟩ := hvalid
    exact ⟨_, .ddpDecode keyed comp, h.ddpDecode P keyed comp hin fun hk => by simpa [hk] using hkey⟩
  | rpaAssemble _ =>
    have hvalid' := h.operandsValid_eq _ ▸ hvalid
    rw [s.operandsValid_rpaAssemble, Bool.and_eq_true] at hvalid
    obtain ⟨hplain, hver⟩ := hvalid
    exact ⟨_, .rpaAssemble hvalid', h.rpaAssemble P hplain hver⟩
  | secRun dist comp =>
    rw [s.operandsValid_secInstr, Bool.and_eq_true] at hvalid
    obtain ⟨hin, hver⟩ := hvalid
    exact ⟨_, .secRun dist comp, h.secRun P dist comp hin hver⟩

/-- Every command takes states that agree to states that agree: its `require` line names every item it reads (R296). -/
theorem State.Agree.commandWith (P : Params) (i : Instr) : (commandWith P i s).Agree (commandWith P i t) := by
  have hsame := h.operandsValid_eq i
  cases hvalid : s.operandsValid i with
  | false =>
    rw [commandWith_of_operandsInvalid P hvalid, commandWith_of_operandsInvalid P (hsame ▸ hvalid)]
    exact h.setCst _
  | true =>
    obtain ⟨t', heffect, hagree⟩ := Effect.agree h (effect_commandWith P hvalid) hvalid
    rwa [← heffect.eq_commandWith (hsame ▸ hvalid)]

/-! ### The host -/

/-- The answer of a host read is the same: an item is read behind its bit (R11, R85). -/
theorem State.Agree.hostRead (a : Item) {v w : HostValue} (hvalue : s.valid a = true → v = w) :
    s.hostRead a v = t.hostRead a w := by
  unfold State.hostRead
  rw [← h.valid_eq a]
  split
  · next hvalid => rw [hvalue hvalid]
  · rfl

theorem State.Agree.readReg (r : Reg) : s.readReg r = t.readReg r := by
  cases r with
  | FSM => exact congrArg (some ∘ HostValue.number ∘ BitVec.toNat) h.fsm
  | ERR => exact congrArg (some ∘ HostValue.number ∘ BitVec.toNat) h.err
  | CST => exact congrArg (some ∘ HostValue.number ∘ BitVec.toNat) h.cst
  | MODE => exact congrArg (some ∘ HostValue.number ∘ BitVec.toNat) h.mode
  | VLD => exact congrArg (some ∘ HostValue.number ∘ BitVec.toNat) h.vld
  | S => exact h.hostRead .S fun hv => congrArg (HostValue.number ∘ BitVec.toNat) (h.regS hv)
  | ARG => exact h.hostRead .ARG fun hv => congrArg (HostValue.number ∘ BitVec.toNat) (h.regArg hv)
  | RES => exact h.hostRead .RES fun hv => congrArg (HostValue.number ∘ BitVec.toNat) (h.regRes hv)
  | ICUR => exact h.hostRead .IN fun hv => congrArg HostValue.number (h.icur hv)
  | VER => exact h.hostRead .VER fun hv => congrArg HostValue.version (h.ver hv)

/-- Issuing a byte takes states that agree to states that agree. -/
theorem State.Agree.issueCommand (c : Byte) :
    ∃ s' t', issueCommand c s = .next s' ∧ issueCommand c t = .next t' ∧ s'.Agree t' := by
  cases hdec : decode c with
  | ok i =>
    refine ⟨_, _, ?_, ?_, h.commandWith Config.params i⟩
    · rw [issueCommand_of_decode_ok _ hdec, exec_eq_commandWith]
    · rw [issueCommand_of_decode_ok _ hdec, exec_eq_commandWith]
  | error e =>
    exact ⟨_, _, issueCommand_of_decode_error _ hdec, issueCommand_of_decode_error _ hdec, h.setCst .illegalCommand⟩

/-- Every host operation takes states that agree to states that agree (R85). -/
theorem State.Agree.hostOp (op : HostOp) :
    ∃ s' t', hostOp op s = .next s' ∧ hostOp op t = .next t' ∧ s'.Agree t' := by
  cases op with
  | issue c => exact h.issueCommand c
  | reset =>
    refine ⟨_, _, rfl, rfl, ?_⟩
    exact ⟨rfl, rfl, rfl, rfl, rfl, h.hostq, h.reply, fun _ => rfl, fun _ => rfl, fun _ => rfl, fun _ => rfl,
      fun _ => rfl, fun _ => rfl, fun _ => rfl, fun _ => rfl, fun _ => rfl, fun _ => rfl⟩
  | writeARG v => exact ⟨_, _, rfl, rfl, h.writeArg v⟩
  | setVER v => exact ⟨_, _, rfl, rfl, h.writeVer v⟩
  | loadIN b => exact ⟨_, _, rfl, rfl, h.writeIn b⟩
  | loadOB b => exact ⟨_, _, rfl, rfl, h.writeOB b⟩
  | loadKEY b => exact ⟨_, _, rfl, rfl, h.writeKey b⟩
  | clearKEY => exact ⟨_, _, rfl, rfl, h.invalidate .KEY⟩
  | loadPLAIN b => exact ⟨_, _, rfl, rfl, h.writePlain b⟩
  | readReg r => exact ⟨_, _, rfl, rfl, h.answer (h.readReg r)⟩
  | readKEY => exact ⟨_, _, rfl, rfl, h.answer (h.hostRead .KEY fun hv => by rw [h.key hv])⟩
  | readPLAIN => exact ⟨_, _, rfl, rfl, h.answer (h.hostRead .PLAIN fun hv => by rw [h.plain hv])⟩
  | readOUT => exact ⟨_, _, rfl, rfl, h.answer (h.hostRead .OUT fun hv => by rw [h.out hv])⟩

end

/-- Settles O59: the host's queues are the same, and one host operation takes states that agree to states that agree. -/
theorem unwrittenStateIsNeverRead : Obligations.UnwrittenStateIsNeverRead := by
  unfold Obligations.UnwrittenStateIsNeverRead
  intro s t hagree
  cases hq : s.hostq with
  | nil => exact ⟨s, t, step_of_hostq_nil hq, step_of_hostq_nil (hagree.hostq ▸ hq), hagree⟩
  | cons op q =>
    rw [step_of_hostq hq, step_of_hostq (hagree.hostq ▸ hq)]
    exact (hagree.withHostq q).hostOp op

end Sys2Proof.Machine
end

section
/-! PROOFS. Pad generation in its functional form (spec/41_key_derivation.md R132 to R134, R143), and what the derived
key depends on (R119, R140, R142). -/

namespace Sys2Proof.Machine

/-! ### The loop of runs -/

/-- The state of pad generation after `r` runs (R132). -/
def padAfter (P : Params) (seed : Word) (r : Nat) : PadState := (kdRun P)^[r] { prng := seed, pad := [] }

/-- The slots that `r` runs would fill with no end to the pad: `times_1 + ... + times_r` (R143). -/
def totalTimes (P : Params) (seed : Word) (r : Nat) : Nat :=
  ((List.range r).map fun k => timesOf P seed (k + 1)).sum

theorem startOf_succ (P : Params) (seed : Word) (r : Nat) : startOf P seed (r + 1) = min 256 (totalTimes P seed r) :=
  rfl

theorem padAfter_succ (P : Params) (seed : Word) (r : Nat) : padAfter P seed (r + 1) = kdRun P (padAfter P seed r) :=
  Function.iterate_succ_apply' ..

theorem totalTimes_succ (P : Params) (seed : Word) (r : Nat) :
    totalTimes P seed (r + 1) = totalTimes P seed r + timesOf P seed (r + 1) := by
  simp [totalTimes, List.range_succ]

/-- Every run fills at least one slot (R134). -/
theorem totalTimes_strictMono (P : Params) (seed : Word) : StrictMono (totalTimes P seed) :=
  strictMono_nat_of_lt_succ fun r => by rw [totalTimes_succ, timesOf]; omega

/-- A run fills at most sixteen slots (R134). -/
theorem totalTimes_le (P : Params) (seed : Word) (r : Nat) : totalTimes P seed r ≤ 16 * r := by
  induction r with
  | zero => exact Nat.le_refl 0
  | succ r ih =>
    rw [totalTimes_succ, timesOf]
    omega

/-- Each run takes two draws (R133). -/
theorem padAfter_prng (P : Params) (seed : Word) (r : Nat) :
    (padAfter P seed r).prng = (lprngNext P)^[2 * r] seed := by
  induction r with
  | zero => rfl
  | succ r ih =>
    rw [padAfter_succ, kdRun_prng, ih, Nat.mul_succ, Function.iterate_succ_apply', Function.iterate_succ_apply']

/-- The low byte of a word as a number. -/
theorem setWidth_and_ff (v : Word) : (v &&& 0xFF).setWidth 8 = BitVec.ofNat 8 (v.toNat % 256) := by
  apply BitVec.eq_of_toNat_eq
  rw [BitVec.toNat_setWidth, BitVec.toNat_ofNat, BitVec.toNat_and]
  exact congrArg (· % 2 ^ 8) (Nat.and_two_pow_sub_one_eq_mod v.toNat 8)

/-- The low four bits of a word as a number. -/
theorem toNat_and_0f (v : Word) : (v &&& 0x0F).toNat = v.toNat % 16 := by
  rw [BitVec.toNat_and]
  exact Nat.and_two_pow_sub_one_eq_mod v.toNat 4

/-- Run `r + 1` appends `fill_(r+1)`, as often as `times_(r+1)` says and the pad has room (R133, R143). -/
theorem padAfter_succ_pad (P : Params) (seed : Word) (r : Nat) :
    (padAfter P seed (r + 1)).pad = (padAfter P seed r).pad ++
      List.replicate (min (timesOf P seed (r + 1)) (256 - (padAfter P seed r).pad.length)) (fillOf P seed (r + 1)) := by
  have hodd : lprngNext P (padAfter P seed r).prng = (lprngNext P)^[2 * (r + 1) - 1] seed := by
    rw [padAfter_prng, ← Function.iterate_succ_apply' (lprngNext P)]
    rfl
  have heven : lprngNext P ((lprngNext P)^[2 * (r + 1) - 1] seed) = (lprngNext P)^[2 * (r + 1)] seed :=
    (Function.iterate_succ_apply' ..).symm
  simp only [padAfter_succ, kdRun, hodd, heven]
  rw [fillOf, timesOf, drawAt, drawAt, ← setWidth_and_ff, ← toNat_and_0f]

/-- After `r` runs the pad is as long as their counts say, up to 256 (R143). -/
theorem padAfter_length (P : Params) (seed : Word) (r : Nat) :
    (padAfter P seed r).pad.length = min 256 (totalTimes P seed r) := by
  induction r with
  | zero => rfl
  | succ r ih =>
    rw [padAfter_succ_pad, List.length_append, List.length_replicate, ih, totalTimes_succ]
    omega

/-- The loop of R132 stops after the first run that fills the pad, or when its passes are spent. -/
theorem kdRuns_padAfter (P : Params) (seed : Word) (n r : Nat) :
    ∃ m ≤ n, kdRuns P n (padAfter P seed r) = padAfter P seed (r + m) ∧
      ∀ j < m, (padAfter P seed (r + j)).pad.length < 256 := by
  induction n generalizing r with
  | zero => exact ⟨0, Nat.le_refl 0, rfl, nofun⟩
  | succ n ih =>
    rw [kdRuns]
    split
    · next hroom =>
      obtain ⟨m, hm, heq, hlt⟩ := ih (r + 1)
      refine ⟨m + 1, Nat.succ_le_succ hm, ?_, fun j hj => ?_⟩
      · rw [← padAfter_succ, heq, Nat.add_right_comm, Nat.add_assoc]
      · cases j with
        | zero => exact hroom
        | succ j =>
          rw [← Nat.add_assoc, Nat.add_right_comm]
          exact hlt j (Nat.lt_of_succ_lt_succ hj)
    · exact ⟨0, Nat.zero_le _, rfl, nofun⟩

/-- Pad generation is the first `r + 1` runs that fill the pad (R132, R134). -/
theorem kdPadgen_eq_padAfter (P : Params) (seed : Word) :
    ∃ r < 256, kdPadgen P seed = padAfter P seed (r + 1) ∧ totalTimes P seed r < 256 ∧
      256 ≤ totalTimes P seed (r + 1) := by
  obtain ⟨m, hm, heq, hlt⟩ := kdRuns_padAfter P seed 256 0
  rw [Nat.zero_add] at heq
  have hlen : (padAfter P seed m).pad.length = 256 := by
    rw [← heq]
    exact kdPadgen_pad_length P seed
  rw [padAfter_length] at hlen
  cases m with
  | zero => simp [totalTimes] at hlen
  | succ r =>
    have hbefore := hlt r (Nat.lt_succ_self r)
    rw [Nat.zero_add, padAfter_length] at hbefore
    exact ⟨r, hm, heq, by omega, by omega⟩

/-- Settles O17: the runs stop with the first that fills the pad; sixteen slots a run need at least sixteen runs. -/
theorem padFillsExactly256 : Obligations.PadFillsExactly256 := by
  unfold Obligations.PadFillsExactly256
  intro P seed
  obtain ⟨r, hr, heq, hlt, hge⟩ := kdPadgen_eq_padAfter P seed
  have hle := totalTimes_le P seed (r + 1)
  refine ⟨kdPadgen_pad_length P seed, r + 1, by omega, hr, ?_, ?_, ?_⟩
  · rw [heq, padAfter_prng]
  · rw [startOf_succ]
    omega
  · rw [startOf_succ]
    omega

/-! ### The slots -/

/-- Run `r + 1` covers slot `i` when the counts up to it pass `i` (R143). -/
def Covers (P : Params) (seed : Word) (r i : Nat) : Prop := totalTimes P seed r ≤ i ∧ i < totalTimes P seed (r + 1)

/-- The statement's form of covering, by `start_r` and `times_r` with `r` from 1. -/
theorem covers_iff {P : Params} {seed : Word} {r i : Nat} (hi : i < 256) :
    Covers P seed r i ↔
      startOf P seed (r + 1) ≤ i ∧ i < startOf P seed (r + 1) + timesOf P seed (r + 1) := by
  rw [Covers, startOf_succ, totalTimes_succ]
  omega

/-- No two runs cover one slot. -/
theorem Covers.unique {P : Params} {seed : Word} {r r' i : Nat} (h : Covers P seed r i) (h' : Covers P seed r' i) :
    r = r' := by
  obtain ⟨hle, hlt⟩ := h
  obtain ⟨hle', hlt'⟩ := h'
  have h1 : r < r' + 1 := (totalTimes_strictMono P seed).lt_iff_lt.mp (Nat.lt_of_le_of_lt hle hlt')
  have h2 : r' < r + 1 := (totalTimes_strictMono P seed).lt_iff_lt.mp (Nat.lt_of_le_of_lt hle' hlt)
  omega

/-- Every slot before the end of the first `n` runs is covered by one of them. -/
theorem exists_covers {P : Params} {seed : Word} {n i : Nat} (h : i < totalTimes P seed n) :
    ∃ r < n, Covers P seed r i := by
  induction n with
  | zero => exact absurd h (Nat.not_lt_zero i)
  | succ n ih =>
    by_cases hn : i < totalTimes P seed n
    · obtain ⟨r, hr, hcovers⟩ := ih hn
      exact ⟨r, Nat.lt_succ_of_lt hr, hcovers⟩
    · exact ⟨n, Nat.lt_succ_self n, Nat.le_of_not_lt hn, h⟩

/-- After the run that covers it a slot holds that run's fill (R133, R143). -/
theorem padAfter_getElem? {P : Params} {seed : Word} {r i n : Nat} (hi : i < 256) (hcovers : Covers P seed r i)
    (hr : r < n) : (padAfter P seed n).pad[i]? = some (fillOf P seed (r + 1)) := by
  obtain ⟨hle, hlt⟩ := hcovers
  induction n with
  | zero => exact absurd hr (Nat.not_lt_zero r)
  | succ n ih =>
    have hlen := padAfter_length P seed n
    rw [padAfter_succ_pad]
    by_cases hrn : r < n
    · have hmono : totalTimes P seed (r + 1) ≤ totalTimes P seed n := (totalTimes_strictMono P seed).monotone hrn
      rw [List.getElem?_append_left (by omega), ih hrn]
    · obtain rfl : r = n := by omega
      rw [totalTimes_succ] at hlt
      rw [List.getElem?_append_right (by omega), List.getElem?_replicate, if_pos (by omega)]

/-- Settles O18: the counts pass each slot once, in the run that fills it. -/
theorem padSlotHoldsFillOfItsRun : Obligations.PadSlotHoldsFillOfItsRun := by
  unfold Obligations.PadSlotHoldsFillOfItsRun
  intro P seed i hi
  obtain ⟨n, -, heq, -, hge⟩ := kdPadgen_eq_padAfter P seed
  obtain ⟨r, hr, hcovers⟩ := exists_covers (Nat.lt_of_lt_of_le hi hge)
  refine ⟨r + 1, ⟨Nat.succ_pos r, (covers_iff hi).mp hcovers⟩, ?_, fun r' hr' => ?_⟩
  · rw [heq]
    exact padAfter_getElem? hi hcovers hr
  · obtain ⟨hpos, hcovers'⟩ := hr'
    obtain ⟨k, rfl⟩ : ∃ k, r' = k + 1 := ⟨r' - 1, by omega⟩
    rw [((covers_iff hi).mpr hcovers').unique hcovers]

/-! ### What the key depends on -/

/-- A byte of a block by its index. -/
theorem toList_getD_zero {n : Nat} (v : Vector Byte n) (i : Nat) (hi : i < n) : v.toList.getD i 0 = v[i] := by
  simp [hi]

/-- The seed is a function of the first four bytes (R131). -/
theorem kdSeed_congr {ob ob' : Vector Byte 256} (h : ∀ i, i < 4 → ob.toList.getD i 0 = ob'.toList.getD i 0) :
    kdSeed ob = kdSeed ob' := by
  have hbyte (i : Nat) (hi : i < 4) : ob[i] = ob'[i] := by
    have hi' : i < 256 := by omega
    rw [← toList_getD_zero ob i hi', ← toList_getD_zero ob' i hi', h i hi]
  rw [kdSeed, kdSeed, hbyte 0 (by decide), hbyte 1 (by decide), hbyte 2 (by decide), hbyte 3 (by decide)]

/-- Settles O19: the four bytes give the seed, hence pad and offset; the sixteen are the bytes the key XORs. -/
theorem keyDependsOnTwentyBlockBytes : Obligations.KeyDependsOnTwentyBlockBytes := by
  unfold Obligations.KeyDependsOnTwentyBlockBytes
  intro s s' hob hob' hseed hwindow
  refine ⟨_, _, exec_kdDerive_of_valid s hob, exec_kdDerive_of_valid s' hob', ?_⟩
  rw [State.keyDerivation_setCst_ok_eq, State.keyDerivation_setCst_ok_eq]
  apply Vector.ext
  intro i hi
  simp only [deriveKey_getElem _ _ i hi, ← kdSeed_congr hseed, hwindow i hi]

/-- The low byte of a draw under a mask whose low byte is all ones (R119). -/
theorem lprngOut_and_ff (P : Params) (v : Word) (hmask : ∀ j, j < 8 → P.lprngMask.getLsbD j = true) :
    lprngOut P v &&& 0xFF = (v >>> P.lprngSh.val) &&& 0xFF := by
  have hff (j : Nat) : (0xFF : Word).getLsbD j = decide (j < 8) := by
    rw [show (0xFF : Word) = BitVec.ofNat 32 (2 ^ 8 - 1) from rfl, BitVec.getLsbD_ofNat, Nat.testBit_two_pow_sub_one]
    by_cases hj : j < 8
    · simp [hj]; omega
    · simp [hj]
  apply BitVec.eq_of_getLsbD_eq
  intro j hj
  simp only [lprngOut, BitVec.getLsbD_and, BitVec.getLsbD_setWidth, hff, hj, decide_true, Bool.true_and]
  by_cases hj8 : j < 8
  · simp [hmask j hj8]
  · simp [hj8]

/-- The pad depends on the PRNG's step and on the low bytes of its outputs alone (R133). -/
theorem kdPadgen_congr {P Q : Params} (hnext : ∀ v, lprngNext P v = lprngNext Q v)
    (hbyte : ∀ v, lprngOut P v &&& 0xFF = lprngOut Q v &&& 0xFF) (seed : Word) :
    kdPadgen P seed = kdPadgen Q seed := by
  have hnibble (v : Word) : lprngOut P v &&& 0x0F = lprngOut Q v &&& 0x0F := by
    have hsub (x : Word) : x &&& 0x0F = x &&& 0xFF &&& 0x0F := by
      rw [BitVec.and_assoc]
      rfl
    rw [hsub, hsub (lprngOut Q v), hbyte]
  have hrun : kdRun P = kdRun Q := by
    funext p
    simp only [kdRun, hnext]
    rw [hbyte, hnibble]
  have hruns (n : Nat) (p : PadState) : kdRuns P n p = kdRuns Q n p := by
    induction n generalizing p with
    | zero => rfl
    | succ n ih => rw [kdRuns, kdRuns, hrun, ih]
  exact hruns 256 _

/-- Settles O20: a run uses the low byte of each of its draws alone. -/
theorem maskAboveBit7NeverReachesKey : Obligations.MaskAboveBit7NeverReachesKey := by
  unfold Obligations.MaskAboveBit7NeverReachesKey
  intro P m m' hm hm' Q Q'
  have hbyte (v : Word) : lprngOut Q v &&& 0xFF = lprngOut Q' v &&& 0xFF :=
    (lprngOut_and_ff Q v hm).trans (lprngOut_and_ff Q' v hm').symm
  have hpad (seed : Word) : kdPadgen Q seed = kdPadgen Q' seed :=
    kdPadgen_congr (P := Q) (Q := Q') (fun _ => rfl) hbyte seed
  refine ⟨fun v => lprngOut_and_ff Q v hm, fun seed => by rw [hpad], fun ob => ?_⟩
  rw [deriveKey, deriveKey, hpad]

/-- The first four bytes of an obfuscated block are its seed in clear (R82, R131). -/
theorem kdSeed_obfuscate (P : Params) (seed : Word) (clear : Vector Byte 256) :
    kdSeed (obfuscate P seed clear) = seed := by
  have hseed : kdSeed (obfuscate P seed clear) =
      le32 (seed.extractLsb' 0 8) (seed.extractLsb' 8 8) (seed.extractLsb' 16 8) (seed.extractLsb' 24 8) := by
    simp [kdSeed, obfuscate]
  rw [hseed, le32_eq_ofNat]
  apply BitVec.eq_of_toNat_eq
  have hlt := seed.isLt
  simp only [BitVec.extractLsb'_toNat, BitVec.toNat_ofNat, Nat.shiftRight_eq_div_pow]
  omega

/-- Past the seed a byte of an obfuscated block is the clear byte XOR the pad byte (R82). -/
theorem obfuscate_getD (P : Params) (seed : Word) (clear : Vector Byte 256) (i : Nat) (h4 : 4 ≤ i) (hi : i < 256) :
    (obfuscate P seed clear).toList.getD i 0 = clear.toList.getD i 0 ^^^ (kdPadgen P seed).pad.getD i 0 := by
  rw [toList_getD_zero _ i hi, toList_getD_zero _ i hi]
  simp [obfuscate, Nat.not_lt.mpr h4, hi]

/-- Settles O21: the pad made from the seed in clear is the pad of the obfuscation, and XORing it twice cancels. -/
theorem obfuscatedKeyIsRecovered : Obligations.ObfuscatedKeyIsRecovered := by
  unfold Obligations.ObfuscatedKeyIsRecovered
  intro s seed clear hvalid hob
  refine ⟨_, exec_kdDerive_of_valid s hvalid, fun i hi => ?_⟩
  have hkey : ((s.keyDerivation Config.params).setCst .ok).key = deriveKey Config.params s.ob := by
    simp [State.keyDerivation]
  have hin : 4 ≤ seed.toNat % 16 + 4 + i ∧ seed.toNat % 16 + 4 + i < 256 := by omega
  simp only [hkey, deriveKey_getElem _ _ i hi, hob, kdSeed_obfuscate, kdOffset_eq]
  rw [obfuscate_getD _ _ _ _ hin.1 hin.2, BitVec.xor_assoc, BitVec.xor_self, BitVec.xor_zero]

end Sys2Proof.Machine
end

section
/-! PROOFS. Canonical codes (spec/43_inflate.md R192 to R194): the symbols of one length, the bound the lengths put on
the codewords, and the decoding of a codeword length by length. -/

namespace Sys2Proof.Machine

/-! ### The symbols of one length -/

/-- The symbols of one length, from symbol `k` on. -/
def symbolsFrom (lens : List Nat) (l k : Nat) : List Nat :=
  ((lens.zipIdx k).filter fun p => p.1 == l).map Prod.snd

theorem symbolsFrom_cons (x : Nat) (lens : List Nat) (l k : Nat) :
    symbolsFrom (x :: lens) l k = if x = l then k :: symbolsFrom lens l (k + 1) else symbolsFrom lens l (k + 1) := by
  by_cases hx : x = l <;> simp [symbolsFrom, List.zipIdx_cons, hx]

/-- As many symbols have a length as the list of lengths counts. -/
theorem symbolsFrom_length (lens : List Nat) (l k : Nat) : (symbolsFrom lens l k).length = lens.count l := by
  induction lens generalizing k with
  | nil => rfl
  | cons x lens ih =>
    rw [symbolsFrom_cons]
    by_cases hx : x = l
    · simp [hx, ih]
    · simp [hx, ih, List.count_cons_of_ne hx]

/-- A symbol stands in the list of its length behind the smaller symbols of that length (R193). -/
theorem symbolsFrom_getElem? {lens : List Nat} {l sym : Nat} (k : Nat) (h : lens[sym]? = some l) :
    (symbolsFrom lens l k)[(lens.take sym).count l]? = some (k + sym) := by
  induction lens generalizing k sym with
  | nil => simp at h
  | cons x lens ih =>
    rw [symbolsFrom_cons]
    cases sym with
    | zero =>
      obtain rfl : x = l := by simpa using h
      simp
    | succ sym =>
      have htail := ih (k + 1) (by simpa using h)
      rw [Nat.add_assoc, Nat.add_comm 1 sym] at htail
      by_cases hx : x = l
      · simpa [hx] using htail
      · simpa [hx, List.count_cons_of_ne hx] using htail

theorem symbolsOfLength_eq (lens : List Nat) (l : Nat) : symbolsOfLength lens l = symbolsFrom lens l 0 := rfl

/-! ### The bound on the codewords -/

/-- The used symbols of length `l`; length 0 marks an unused symbol (R193). -/
def usedCount (lens : List Nat) (l : Nat) : Nat := if l = 0 then 0 else lens.count l

theorem usedCount_succ (lens : List Nat) (l : Nat) : usedCount lens (l + 1) = lens.count (l + 1) :=
  if_neg (Nat.succ_ne_zero l)

theorem firstCodeword_succ (lens : List Nat) (l : Nat) :
    firstCodeword lens (l + 1) = 2 * (firstCodeword lens l + usedCount lens l) := rfl

/-- The part of the Kraft sum that the lengths up to `l` make. -/
def kraftUpTo (lens : List Nat) (l : Nat) : Nat :=
  (lens.map fun x => if x = 0 ∨ l < x then 0 else 2 ^ (15 - x)).sum

theorem kraftUpTo_le (lens : List Nat) (l : Nat) : kraftUpTo lens l ≤ kraftSum lens := by
  refine List.sum_le_sum fun x _ => ?_
  split
  · exact Nat.zero_le _
  · next hx => rw [if_neg (not_or.mp hx).1]

theorem kraftUpTo_zero (lens : List Nat) : kraftUpTo lens 0 = 0 := by
  simp [kraftUpTo, Nat.pos_iff_ne_zero, em]

theorem kraftUpTo_succ (lens : List Nat) (l : Nat) :
    kraftUpTo lens (l + 1) = kraftUpTo lens l + lens.count (l + 1) * 2 ^ (15 - (l + 1)) := by
  induction lens with
  | nil => simp [kraftUpTo]
  | cons x lens ih =>
    simp only [kraftUpTo, List.map_cons, List.sum_cons] at ih ⊢
    rw [ih]
    by_cases hx : x = l + 1
    · subst hx
      simp
      ring
    · have hiff : (x = 0 ∨ l + 1 < x) ↔ (x = 0 ∨ l < x) := by omega
      rw [List.count_cons_of_ne hx]
      simp only [hiff]
      omega

/-- The codewords up to length `l` take just the part of the code space that their lengths make (R193). -/
theorem codewords_eq_kraftUpTo (lens : List Nat) {l : Nat} (hl : l ≤ 15) :
    (firstCodeword lens l + usedCount lens l) * 2 ^ (15 - l) = kraftUpTo lens l := by
  induction l with
  | zero => simp [firstCodeword, usedCount, kraftUpTo_zero]
  | succ l ih =>
    have hpow : 2 ^ (15 - l) = 2 * 2 ^ (15 - (l + 1)) := by
      rw [← Nat.pow_succ']
      congr 1
      omega
    have ih := ih (by omega)
    rw [hpow] at ih
    rw [kraftUpTo_succ, ← ih, firstCodeword_succ, usedCount_succ]
    ring

/-- Lengths that are not over-subscribed leave every codeword of length `l` below `2^l` (R193). -/
theorem codewords_le {lens : List Nat} {l : Nat} (hl : l ≤ 15) (hkraft : kraftSum lens ≤ 2 ^ 15) :
    firstCodeword lens l + usedCount lens l ≤ 2 ^ l := by
  have hle := (codewords_eq_kraftUpTo lens hl).le.trans ((kraftUpTo_le lens l).trans hkraft)
  have hpow : 2 ^ 15 = 2 ^ l * 2 ^ (15 - l) := by rw [← Nat.pow_add, Nat.add_sub_cancel' hl]
  rw [hpow] at hle
  exact Nat.le_of_mul_le_mul_right hle (Nat.two_pow_pos _)

/-- The codewords of a length start past the extensions of all shorter codewords (R193). -/
theorem firstCodeword_ge (lens : List Nat) (l n : Nat) :
    (firstCodeword lens l + usedCount lens l) * 2 ^ (n + 1) ≤ firstCodeword lens (l + n + 1) := by
  induction n with
  | zero => rw [Nat.add_zero, firstCodeword_succ]; omega
  | succ n ih =>
    rw [show l + (n + 1) + 1 = l + n + 1 + 1 from rfl, firstCodeword_succ lens (l + n + 1), Nat.pow_succ]
    calc (firstCodeword lens l + usedCount lens l) * (2 ^ (n + 1) * 2)
        = 2 * ((firstCodeword lens l + usedCount lens l) * 2 ^ (n + 1)) := by ring
      _ ≤ 2 * (firstCodeword lens (l + n + 1) + usedCount lens (l + n + 1)) := by omega

/-! ### Decoding a codeword -/

/-- The entries of a canonical code for the lengths from `l + 1` on. -/
def codeFrom (lens : List Nat) (l : Nat) : HuffCode :=
  (List.range' l (15 - l)).map fun l => (firstCodeword lens (l + 1), symbolsOfLength lens (l + 1))

theorem canonicalCode_eq (lens : List Nat) : canonicalCode lens = codeFrom lens 0 := by
  rw [canonicalCode, codeFrom, List.range_eq_range']

theorem codeFrom_of_lt (lens : List Nat) {l : Nat} (hl : l < 15) :
    codeFrom lens l = (firstCodeword lens (l + 1), symbolsOfLength lens (l + 1)) :: codeFrom lens (l + 1) := by
  rw [codeFrom, show 15 - l = (15 - (l + 1)) + 1 by omega, List.range'_succ, List.map_cons]
  rfl

/-- One bit more of a number written most significant first (R194). -/
theorem two_mul_div_add_testBit (v n : Nat) : 2 * (v / 2 ^ (n + 1)) + (v.testBit n).toNat = v / 2 ^ n := by
  rw [Nat.pow_succ, ← Nat.div_div_eq_div_mul, Nat.toNat_testBit]
  omega

/-- A codeword's first bits name no shorter codeword, and all its bits name its symbol: decoding goes on from length to
length up to its own (R194). `code` is the codeword, `l` the number of its bits read, `n + 1` of those not yet read. -/
theorem decodeSymbolFrom_codeFrom {lens : List Nat} {sym code : Nat} (l n : Nat) (r : Bits) (hlen : l + n < 15)
    (hsym : (symbolsOfLength lens (l + n + 1))[code - firstCodeword lens (l + n + 1)]? = some sym)
    (hfirst : firstCodeword lens (l + n + 1) ≤ code) :
    decodeSymbolFrom (codeFrom lens l) (code / 2 ^ (n + 1)) (msbBits (n + 1) code ++ r) = some (sym, r) := by
  induction n generalizing l with
  | zero =>
    rw [codeFrom_of_lt lens (by omega), msbBits, List.cons_append, decodeSymbolFrom]
    simp only [two_mul_div_add_testBit, Nat.pow_zero, Nat.div_one]
    rw [Nat.add_zero] at hsym hfirst
    rw [if_pos hfirst, hsym]
    rfl
  | succ n ih =>
    have hnext := ih (l + 1) (by omega) (by rwa [Nat.add_right_comm l 1 n]) (by rwa [Nat.add_right_comm l 1 n])
    have hpast : firstCodeword lens (l + 1) + lens.count (l + 1) ≤ code / 2 ^ (n + 1) := by
      rw [Nat.le_div_iff_mul_le (Nat.two_pow_pos _)]
      have hge := firstCodeword_ge lens (l + 1) n
      rw [Nat.add_right_comm l 1 n] at hge
      exact hge.trans hfirst
    rw [codeFrom_of_lt lens (by omega), msbBits, List.cons_append, decodeSymbolFrom]
    simp only [two_mul_div_add_testBit]
    rw [if_pos (by omega), List.getElem?_eq_none (by rw [symbolsOfLength_eq, symbolsFrom_length]; omega)]
    exact hnext

/-- Settles O37: the codeword is below two to its length, so its bits are all of it, and they are read length by
length. -/
theorem canonicalCodewordsDecode : Obligations.CanonicalCodewordsDecode := by
  unfold Obligations.CanonicalCodewordsDecode
  intro lens sym r hlens hkraft hused
  have hget : lens[sym]? = some (lens.getD sym 0) := by
    cases h : lens[sym]? with
    | none => simp [h] at hused
    | some l => simp [h]
  have hle : lens.getD sym 0 ≤ 15 := hlens _ (List.mem_of_getElem? hget)
  obtain ⟨n, hn⟩ : ∃ n, lens.getD sym 0 = n + 1 := Nat.exists_eq_succ_of_ne_zero hused
  rw [codewordOf, hn]
  rw [hn] at hget hle
  have hsym := symbolsFrom_getElem? 0 hget
  rw [Nat.zero_add] at hsym
  have hrank : (lens.take sym).count (n + 1) < lens.count (n + 1) := by
    rw [← symbolsFrom_length lens (n + 1) 0]
    exact (List.getElem?_eq_some_iff.mp hsym).1
  have hlt := codewords_le hle hkraft
  rw [usedCount_succ] at hlt
  have hzero : (firstCodeword lens (n + 1) + (lens.take sym).count (n + 1)) / 2 ^ (n + 1) = 0 :=
    Nat.div_eq_of_lt (by omega)
  have hdecode := decodeSymbolFrom_codeFrom (lens := lens) (sym := sym)
    (code := firstCodeword lens (n + 1) + (lens.take sym).count (n + 1)) 0 n r (by omega)
    (by rw [Nat.zero_add, Nat.add_sub_cancel_left, ← hsym, symbolsOfLength_eq])
    (by rw [Nat.zero_add]; exact Nat.le_add_right _ _)
  rw [hzero] at hdecode
  rw [decodeSymbol, canonicalCode_eq, hdecode]

/-! ### The fixed codes -/

/-- In a run of `m` symbols of one length the codewords follow one another, after those of the symbols before (R193). -/
theorem codewordOf_run {lens : List Nat} (before after : List Nat) {v m n w k : Nat}
    (hlens : lens = before ++ List.replicate m v ++ after) (hn : before.length = n)
    (hw : firstCodeword lens v + before.count v = w) (hk : k < m) :
    lens.getD (n + k) 0 = v ∧ codewordOf lens (n + k) = w + k := by
  subst hn hw
  have hget : lens.getD (before.length + k) 0 = v := by
    rw [hlens, List.append_assoc, List.getD_append_right _ _ _ _ (Nat.le_add_right ..), Nat.add_sub_cancel_left,
      List.getD_append _ _ _ _ (by rwa [List.length_replicate])]
    simp [hk]
  have htake : lens.take (before.length + k) = before ++ List.replicate k v := by
    rw [hlens, List.append_assoc, List.take_length_add_append,
      List.take_append_of_le_length (by rw [List.length_replicate]; omega), List.take_replicate, Nat.min_eq_left hk.le]
  refine ⟨hget, ?_⟩
  rw [codewordOf, hget, htake, List.count_append, List.count_replicate_self, Nat.add_assoc]

/-- Settles O38: the fixed lengths are four runs and one run, and the first codeword of each run is computed. -/
theorem fixedCodesAreTheListedRanges : Obligations.FixedCodesAreTheListedRanges := by
  unfold Obligations.FixedCodesAreTheListedRanges
  refine ⟨fun sym h => ?_, fun sym h => ?_, fun sym h => ?_, fun sym h => ?_, fun sym h => ?_, by decide +kernel,
    by decide +kernel⟩
  · have hrun := codewordOf_run (lens := fixedLitLenLengths) (v := 8) (n := 0) (w := 48) []
      (List.replicate 112 9 ++ List.replicate 24 7 ++ List.replicate 8 8)
      (by rw [fixedLitLenLengths, List.append_assoc, List.append_assoc, List.nil_append, List.append_assoc]) rfl
      (by decide +kernel) h
    rwa [Nat.zero_add] at hrun
  · exact codewordOf_run (List.replicate 144 8) (List.replicate 24 7 ++ List.replicate 8 8)
      (by rw [fixedLitLenLengths, List.append_assoc]) (by decide +kernel) (by decide +kernel) h
  · have hrun := codewordOf_run (lens := fixedLitLenLengths) (v := 7) (n := 256) (w := 0)
      (List.replicate 144 8 ++ List.replicate 112 9) (List.replicate 8 8) rfl (by decide +kernel) (by decide +kernel) h
    rwa [Nat.zero_add] at hrun
  · exact codewordOf_run (List.replicate 144 8 ++ List.replicate 112 9 ++ List.replicate 24 7) []
      (by rw [fixedLitLenLengths, List.append_nil]) (by decide +kernel) (by decide +kernel) h
  · have hrun := codewordOf_run (lens := fixedDistLengths) (v := 5) (n := 0) (w := 0) [] []
      (by rw [fixedDistLengths, List.append_nil, List.nil_append]) rfl (by decide +kernel) h
    rwa [Nat.zero_add] at hrun

end Sys2Proof.Machine
end

section
/-! PROOFS. The deflate decoder over its bits (spec/43_inflate.md): every part reads forward and reads the same whatever
follows (R182, R184), the lenient policy accepts what the strict one does (R205), and no loop runs out of fuel
(R340). -/

namespace Sys2Proof.Machine

/-! ### Reading forward, whatever follows -/

/-- Where the reader `f` answers, it has read forward, and `g` answers the same with whole bytes appended (R182, R184).
`mk` makes an answer of its value and the bits left. -/
def Reads {α ρ : Type} (mk : α → Bits → ρ) (f g : Bits → Option ρ) : Prop :=
  ∀ r x, f r = some x →
    ∃ a r', x = mk a r' ∧ r'.length ≤ r.length ∧ ∀ m : Bits, m.length % 8 = 0 → g (r ++ m) = some (mk a (r' ++ m))

section
variable {α β ρ σ : Type} {mk : α → Bits → ρ} {mk' : β → Bits → σ}

theorem Reads.bind {f f' : Bits → Option ρ} {k k' : ρ → Option σ} (hf : Reads mk f f')
    (hk : ∀ a, Reads mk' (fun r => k (mk a r)) (fun r => k' (mk a r))) :
    Reads mk' (fun r => f r >>= k) (fun r => f' r >>= k') := by
  intro r x h
  obtain ⟨y, h₁, h₂⟩ := Option.bind_eq_some_iff.mp h
  obtain ⟨a, r₁, rfl, hlen₁, happ₁⟩ := hf r y h₁
  obtain ⟨b, r₂, rfl, hlen₂, happ₂⟩ := hk a r₁ x h₂
  refine ⟨b, r₂, rfl, hlen₂.trans hlen₁, fun m hm => ?_⟩
  exact Option.bind_eq_some_iff.mpr ⟨_, happ₁ m hm, happ₂ m hm⟩

/-- Looking a value up reads no bits. -/
theorem Reads.bind_const {o : Option ρ} {k k' : ρ → Bits → Option σ} (hk : ∀ a, Reads mk' (k a) (k' a)) :
    Reads mk' (fun r => o >>= fun a => k a r) (fun r => o >>= fun a => k' a r) := by
  cases o with
  | none => nofun
  | some a => exact hk a

theorem reads_some (a : α) : Reads mk (fun r => some (mk a r)) (fun r => some (mk a r)) := by
  intro r x h
  cases h
  exact ⟨a, r, rfl, Nat.le_refl _, fun _ _ => rfl⟩

theorem reads_none (g : Bits → Option ρ) : Reads mk (fun _ => none) g := nofun

theorem Reads.ite {c : Prop} [Decidable c] {f f' g g' : Bits → Option ρ} (hf : Reads mk f f') (hg : Reads mk g g') :
    Reads mk (fun r => if c then f r else g r) (fun r => if c then f' r else g' r) := by
  by_cases hc : c
  · simpa only [if_pos hc] using hf
  · simpa only [if_neg hc] using hg

end

theorem reads_readBits (n : Nat) : Reads Prod.mk (readBits n) (readBits n) := fun _ ⟨v, r'⟩ h =>
  ⟨v, r', rfl, by rw [readBits_length h]; exact Nat.le_add_right .., fun m _ => readBits_append m h⟩

theorem reads_decodeSymbol (c : HuffCode) : Reads Prod.mk (decodeSymbol c) (decodeSymbol c) := fun _ ⟨v, r'⟩ h =>
  ⟨v, r', rfl, (decodeSymbol_length h).le, fun m _ => decodeSymbol_append m h⟩

theorem reads_readMany (w n : Nat) : Reads Prod.mk (readMany w n) (readMany w n) := by
  induction n with
  | zero => exact reads_some []
  | succ n ih => exact (reads_readBits w).bind fun v => ih.bind fun vs => reads_some (v :: vs)

theorem reads_readMatch (dd : HuffCode) (sym : Nat) :
    Reads (fun (p : Nat × Nat) r => (p.1, p.2, r)) (readMatch dd sym) (readMatch dd sym) :=
  Reads.bind_const fun ⟨lext, lbase⟩ => (reads_readBits lext).bind fun e => (reads_decodeSymbol dd).bind fun _ =>
    Reads.bind_const fun ⟨dext, dbase⟩ => (reads_readBits dext).bind fun d => reads_some (lbase + e, dbase + d)

/-- The body of a block, with fuel to spare (R188). -/
theorem reads_inflateBody (ll dd : HuffCode) {n n' : Nat} (hn : n ≤ n') (out : List Byte) :
    Reads Prod.mk (fun r => inflateBody ll dd n r out) (fun r => inflateBody ll dd n' r out) := by
  induction n generalizing n' out with
  | zero => exact reads_none _
  | succ n ih =>
    obtain ⟨n', rfl⟩ : ∃ k, n' = k + 1 := ⟨n' - 1, by omega⟩
    have hn := Nat.le_of_succ_le_succ hn
    refine (reads_decodeSymbol ll).bind fun sym => Reads.ite (ih hn _) (Reads.ite (reads_some out) ?_)
    exact (reads_readMatch dd sym).bind fun ⟨len, dist⟩ => Reads.ite (reads_none _) (ih hn _)

/-- The next byte boundary is the same with whole bytes appended (R186). -/
theorem skipToByte_append (r m : Bits) (hm : m.length % 8 = 0) : skipToByte (r ++ m) = skipToByte r ++ m := by
  have hmod : (r ++ m).length % 8 = r.length % 8 := by
    rw [List.length_append]
    omega
  rw [skipToByte, hmod, List.drop_append_of_le_length (Nat.mod_le ..), skipToByte]

theorem Reads.skipToByte {α ρ : Type} {mk : α → Bits → ρ} {f g : Bits → Option ρ} (h : Reads mk f g) :
    Reads mk (fun r => f (skipToByte r)) (fun r => g (skipToByte r)) := by
  intro r x hx
  obtain ⟨a, r', rfl, hlen, happ⟩ := h _ x hx
  refine ⟨a, r', rfl, hlen.trans ?_, fun m hm => ?_⟩
  · rw [Machine.skipToByte, List.length_drop]
    exact Nat.sub_le ..
  · simp only [skipToByte_append r m hm]
    exact happ m hm

theorem reads_inflateStored (out : List Byte) :
    Reads Prod.mk (fun r => inflateStored r out) (fun r => inflateStored r out) :=
  (reads_readBits 16).skipToByte.bind fun len => (reads_readBits 16).bind fun _ => Reads.ite (reads_none _)
    ((reads_readMany 8 len).bind fun bytes => reads_some ((bytes.map (BitVec.ofNat 8)).reverse ++ out))

theorem reads_readLengths1 (cl : HuffCode) (lens : List Nat) :
    Reads Prod.mk (readLengths1 cl lens) (readLengths1 cl lens) := by
  refine (reads_decodeSymbol cl).bind fun sym => Reads.ite (reads_some [sym]) (Reads.ite ?_ (Reads.ite ?_ ?_))
  · exact Reads.bind_const fun last => (reads_readBits 2).bind fun e => reads_some (List.replicate (3 + e) last)
  · exact (reads_readBits 3).bind fun e => reads_some (List.replicate (3 + e) 0)
  · exact (reads_readBits 7).bind fun e => reads_some (List.replicate (11 + e) 0)

theorem reads_readLengths (cl : HuffCode) (total n : Nat) (lens : List Nat) :
    Reads Prod.mk (readLengths cl total n lens) (readLengths cl total n lens) := by
  induction n generalizing lens with
  | zero => exact Reads.ite (reads_none _) (reads_some lens)
  | succ n ih =>
    exact Reads.ite ((reads_readLengths1 cl lens).bind fun more => Reads.ite (reads_none _) (ih _)) (reads_some lens)

/-! ### The two policies -/

/-- The second policy accepts what the first one accepts: it is the same or the lenient one (R205). -/
def Extends (pol pol' : IncompletePolicy) : Prop := pol' = pol ∨ pol' = .allow

theorem Extends.codeAccepted {pol pol' : IncompletePolicy} (h : Extends pol pol') {u : CodeUse} {lens : List Nat}
    (hc : codeAccepted pol u lens = true) : codeAccepted pol' u lens = true := by
  obtain rfl | rfl := h
  · exact hc
  · unfold Machine.codeAccepted at hc ⊢
    split at hc
    · cases hc
    · next hover => simpa using Nat.le_of_not_lt hover

theorem Extends.tooManyCodes {pol pol' : IncompletePolicy} (h : Extends pol pol') {hlit hdist : Nat}
    (hc : tooManyCodes pol hlit hdist = false) : tooManyCodes pol' hlit hdist = false := by
  obtain rfl | rfl := h
  · exact hc
  · rfl

/-- A check that the second policy passes where the first does. -/
theorem Reads.check {α ρ : Type} {mk : α → Bits → ρ} {b b' : Bool} (hb : b = false → b' = false)
    {f g : Bits → Option ρ} (h : Reads mk f g) :
    Reads mk (fun r => if b = true then none else f r) (fun r => if b' = true then none else g r) := by
  cases b with
  | true => exact reads_none _
  | false => simpa [hb rfl] using h

theorem reads_readDynamicHeader {pol pol' : IncompletePolicy} (h : Extends pol pol') :
    Reads (fun (p : HuffCode × HuffCode) r => (p.1, p.2, r)) (readDynamicHeader pol) (readDynamicHeader pol') := by
  refine (reads_readBits 5).bind fun hlit => (reads_readBits 5).bind fun hdist =>
    (reads_readBits 4).bind fun hclen => ?_
  refine Reads.check h.tooManyCodes ((reads_readMany 3 (hclen + 4)).bind fun vals => ?_)
  refine Reads.check (fun hc => by simpa using h.codeAccepted (by simpa using hc)) ?_
  refine (reads_readLengths _ _ _ _).bind fun lens => Reads.ite (reads_none _) (Reads.check (fun hc => ?_) ?_)
  · simp only [Bool.not_eq_false', Bool.and_eq_true] at hc ⊢
    exact ⟨h.codeAccepted hc.1, h.codeAccepted hc.2⟩
  · exact reads_some (canonicalCode (lens.take (hlit + 257)), canonicalCode (lens.drop (hlit + 257)))

theorem reads_inflateBody_length (ll dd : HuffCode) (out : List Byte) :
    Reads Prod.mk (fun r => inflateBody ll dd r.length r out) (fun r => inflateBody ll dd r.length r out) := by
  intro r x h
  obtain ⟨a, r', rfl, hlen, -⟩ := reads_inflateBody ll dd (Nat.le_refl r.length) out r x h
  refine ⟨a, r', rfl, hlen, fun m hm => ?_⟩
  have hfuel : r.length ≤ (r ++ m).length := by
    rw [List.length_append]
    exact Nat.le_add_right ..
  obtain ⟨a', r'', heq, -, happ⟩ := reads_inflateBody ll dd hfuel out r _ h
  cases heq
  exact happ m hm

theorem reads_inflateBlock {pol pol' : IncompletePolicy} (h : Extends pol pol') (btype : Nat) (out : List Byte) :
    Reads Prod.mk (fun r => inflateBlock pol btype r out) (fun r => inflateBlock pol' btype r out) :=
  match btype with
  | 0 => reads_inflateStored out
  | 1 => reads_inflateBody_length _ _ out
  | 2 => (reads_readDynamicHeader h).bind fun (ll, dd) => reads_inflateBody_length ll dd out
  | _ + 3 => reads_none _

/-- The block loop, with fuel to spare: its answer holds no bits, for what follows the final block is ignored (R184). -/
theorem reads_inflateBlocks {pol pol' : IncompletePolicy} (h : Extends pol pol') {n n' : Nat} (hn : n ≤ n')
    (out : List Byte) :
    Reads (fun o _ => o) (fun r => inflateBlocks pol n r out) (fun r => inflateBlocks pol' n' r out) := by
  induction n generalizing n' out with
  | zero => exact reads_none _
  | succ n ih =>
    obtain ⟨n', rfl⟩ : ∃ k, n' = k + 1 := ⟨n' - 1, by omega⟩
    exact (reads_readBits 1).bind fun _ => (reads_readBits 2).bind fun btype =>
      (reads_inflateBlock h btype out).bind fun out =>
        Reads.ite (reads_some (mk := fun o _ => o) out) (ih (Nat.le_of_succ_le_succ hn) out)

/-- An input that is `Ok` is `Ok` with the same output under a policy that accepts as much, whatever is appended. -/
theorem inflate_append {pol pol' : IncompletePolicy} (h : Extends pol pol') {pt out : List Byte} (more : List Byte)
    (hok : inflate pol pt = some out) : inflate pol' (pt ++ more) = some out := by
  obtain ⟨o, hblocks, rfl⟩ := Option.map_eq_some_iff.mp hok
  have hfuel : (bitStream pt).length ≤ (bitStream (pt ++ more)).length := by
    simp only [bitStream_length, List.length_append]
    omega
  obtain ⟨a, r', rfl, -, happ⟩ := reads_inflateBlocks h hfuel [] _ _ hblocks
  have hall := happ (bitStream more) (by simp)
  rw [← bitStream_append] at hall
  exact congrArg (Option.map List.reverse) hall

/-- Settles O33: the decoder reads forward and stops with the final block. -/
theorem trailingBytesAreIgnored : Obligations.TrailingBytesAreIgnored := by
  unfold Obligations.TrailingBytesAreIgnored
  exact fun pol pt more out hok => inflate_append (.inl rfl) more hok

/-- Settles O34: the policy enters in the checks of a dynamic header alone, and the lenient one passes more. -/
theorem lenientExtendsStrict : Obligations.LenientExtendsStrict := by
  unfold Obligations.LenientExtendsStrict
  intro pt out hok
  have hlenient := inflate_append (.inr rfl) [] hok
  rwa [List.append_nil] at hlenient

/-! ### Fuel -/

/-- No symbol is read from no bits (R194). -/
theorem decodeSymbol_nil (c : HuffCode) : decodeSymbol c [] = none := by cases c <;> rfl

/-- What each step of the body leaves is shorter, so one unit of fuel more than the bits is not used (R340). -/
theorem inflateBody_succ (ll dd : HuffCode) {n : Nat} {r : Bits} (hn : r.length ≤ n) (out : List Byte) :
    inflateBody ll dd (n + 1) r out = inflateBody ll dd n r out := by
  induction n generalizing r out with
  | zero =>
    obtain rfl := List.eq_nil_of_length_eq_zero (Nat.le_zero.mp hn)
    rw [inflateBody, inflateBody, decodeSymbol_nil]
    rfl
  | succ n ih =>
    rw [inflateBody, inflateBody]
    refine Option.bind_congr fun ⟨sym, r₁⟩ h₁ => ?_
    have hlen₁ := decodeSymbol_length h₁
    refine if_congr Iff.rfl (ih (by omega) _) (if_congr Iff.rfl rfl ?_)
    refine Option.bind_congr fun ⟨len, dist, r₂⟩ h₂ => ?_
    have hlen₂ := readMatch_length h₂
    exact if_congr Iff.rfl rfl (ih (by omega) _)

/-- A block header and body leave fewer bits, so one unit of fuel more than the bits is not used (R340). -/
theorem inflateBlocks_succ (pol : IncompletePolicy) {n : Nat} {r : Bits} (hn : r.length ≤ n) (out : List Byte) :
    inflateBlocks pol (n + 1) r out = inflateBlocks pol n r out := by
  induction n generalizing r out with
  | zero =>
    obtain rfl := List.eq_nil_of_length_eq_zero (Nat.le_zero.mp hn)
    rfl
  | succ n ih =>
    rw [inflateBlocks, inflateBlocks]
    refine Option.bind_congr fun ⟨bfinal, r₁⟩ h₁ => Option.bind_congr fun ⟨btype, r₂⟩ h₂ =>
      Option.bind_congr fun ⟨out', r₃⟩ h₃ => ?_
    have hlen₁ := readBits_length h₁
    have hlen₂ := readBits_length h₂
    obtain ⟨_, _, heq, hlen₃, -⟩ := reads_inflateBlock (.inl rfl : Extends pol pol) btype out r₂ _ h₃
    cases heq
    exact if_congr Iff.rfl rfl (ih (by omega) _)

/-- Every code-length symbol appends a length, so one unit of fuel more than those wanted is not used (R196). -/
theorem readLengths_succ (cl : HuffCode) {total n : Nat} {lens : List Nat} (hn : total ≤ lens.length + n) (r : Bits) :
    readLengths cl total (n + 1) lens r = readLengths cl total n lens r := by
  induction n generalizing lens r with
  | zero =>
    have hfull : ¬lens.length < total := Nat.not_lt.mpr hn
    rw [readLengths, readLengths, if_neg hfull, if_neg hfull]
  | succ n ih =>
    rw [readLengths, readLengths]
    refine if_congr Iff.rfl (Option.bind_congr fun ⟨more, r₁⟩ h₁ => ?_) rfl
    have hpos := readLengths1_pos h₁
    exact if_congr Iff.rfl rfl (ih (by rw [List.length_append]; omega) _)

/-- Fuel that one unit more never changes, from `k` on, is as good as `k`. -/
theorem fuel_irrelevant {α : Type} {f : Nat → α} {k : Nat} (h : ∀ n, k ≤ n → f (n + 1) = f n) {n : Nat} (hn : k ≤ n) :
    f n = f k := by
  induction n, hn using Nat.le_induction with
  | base => rfl
  | succ n hn ih => rw [h n hn, ih]

/-- Settles O35: none of the three loops uses a unit of fuel more than it is given. -/
theorem inflateFuelSuffices : Obligations.InflateFuelSuffices := by
  unfold Obligations.InflateFuelSuffices
  refine ⟨fun pol r out n hn => ?_, fun ll dd r out n hn => ?_, fun cl total lens r n hn => ?_⟩
  · exact fuel_irrelevant (f := fun n => inflateBlocks pol n r out) (fun _ h => inflateBlocks_succ pol h out) hn
  · exact fuel_irrelevant (f := fun n => inflateBody ll dd n r out) (fun _ h => inflateBody_succ ll dd h out) hn
  · exact fuel_irrelevant (f := fun n => readLengths cl total n lens r)
      (fun n h => readLengths_succ cl (Nat.le_add_left_of_le h) r) hn

end Sys2Proof.Machine
end

section
/-! PROOFS. The blocks of deflate (spec/43_inflate.md): a stream must start with a defined block (R185, R187), a stored
block gives its bytes (R186), and a match repeats the history (R191). -/

namespace Sys2Proof.Machine

/-- Some byte more is eight bits more (R182). -/
theorem bitStream_cons (b : Byte) (p : List Byte) : bitStream (b :: p) = byteBits b ++ bitStream p := rfl

/-- `bits(8)` from a byte boundary is the byte (R182). -/
theorem readBits_byteBits (b : Byte) (r : Bits) : readBits 8 (byteBits b ++ r) = some (b.toNat, r) := by
  have hbyte : readBits 8 (byteBits b) = some (b.toNat, []) := by
    revert b
    decide
  exact readBits_append r hbyte

/-- Reading on continues the number above the bits read (R182). -/
theorem readBits_add {n k v w : Nat} {r r₁ r₂ : Bits} (h₁ : readBits n r = some (v, r₁))
    (h₂ : readBits k r₁ = some (w, r₂)) : readBits (n + k) r = some (v + 2 ^ n * w, r₂) := by
  induction n generalizing v r with
  | zero =>
    cases h₁
    simpa using h₂
  | succ n ih =>
    cases r with
    | nil => cases h₁
    | cons b r =>
      rw [readBits] at h₁
      split at h₁
      · cases h₁
      · next v' r' heq =>
        cases h₁
        rw [Nat.add_right_comm, readBits, ih heq]
        simp only [Option.some.injEq, Prod.mk.injEq, and_true]
        ring

/-- `bits(16)` from a byte boundary, of a number stored little-endian (R186). -/
theorem readBits_16 (v : BitVec 16) (r : Bits) :
    readBits 16 (byteBits (v.extractLsb' 0 8) ++ (byteBits (v.extractLsb' 8 8) ++ r)) = some (v.toNat, r) := by
  have hread := readBits_add (readBits_byteBits (v.extractLsb' 0 8) (byteBits (v.extractLsb' 8 8) ++ r))
    (readBits_byteBits (v.extractLsb' 8 8) r)
  have hvalue : (v.extractLsb' 0 8).toNat + 2 ^ 8 * (v.extractLsb' 8 8).toNat = v.toNat := by
    have hlt := v.isLt
    simp only [BitVec.extractLsb'_toNat, Nat.shiftRight_eq_div_pow]
    omega
  rwa [hvalue] at hread

/-- Bytes are read back from a byte boundary (R186). -/
theorem readMany_bitStream (l : List Byte) (r : Bits) :
    readMany 8 l.length (bitStream l ++ r) = some (l.map BitVec.toNat, r) := by
  induction l with
  | nil => rfl
  | cons b l ih =>
    rw [bitStream_cons, List.append_assoc, List.length_cons, readMany, readBits_byteBits]
    simp [ih]

/-- The complement of a 16-bit length, as the header is checked (R186). -/
theorem toNat_not_eq_xor (v : BitVec 16) : (~~~v).toNat = v.toNat ^^^ 0xFFFF := by
  rw [← BitVec.xor_allOnes, BitVec.toNat_xor]
  rfl

/-- The rest of a block's last header byte is skipped (R186). -/
theorem skipToByte_append_of_lt (pad : Bits) (p : List Byte) (hpad : pad.length < 8) :
    skipToByte (pad ++ bitStream p) = bitStream p := by
  have hmod : (pad ++ bitStream p).length % 8 = pad.length := by
    rw [List.length_append, bitStream_length]
    omega
  rw [skipToByte, hmod, List.drop_left]

/-- The header of a stored block after its type: the length and its complement, little-endian (R186). -/
def storedHeader (len : BitVec 16) : List Byte :=
  [len.extractLsb' 0 8, len.extractLsb' 8 8, (~~~len).extractLsb' 0 8, (~~~len).extractLsb' 8 8]

/-- A stored block gives its bytes (R186). -/
theorem inflateStored_eq (l more : List Byte) (pad : Bits) (hl : l.length < 2 ^ 16) (hpad : pad.length < 8)
    (out : List Byte) :
    inflateStored (pad ++ bitStream (storedHeader (BitVec.ofNat 16 l.length) ++ l ++ more)) out =
      some (l.reverse ++ out, bitStream more) := by
  have hlen : (BitVec.ofNat 16 l.length).toNat = l.length := by
    rw [BitVec.toNat_ofNat, Nat.mod_eq_of_lt hl]
  have hbytes : (l.map BitVec.toNat).map (BitVec.ofNat 8) = l := by
    rw [List.map_map]
    exact List.map_id'' (fun b => by simp) l
  rw [inflateStored, skipToByte_append_of_lt pad _ hpad]
  simp only [storedHeader, List.cons_append, List.nil_append, bitStream_cons, readBits_16, bitStream_append,
    toNat_not_eq_xor, hlen, Option.bind_eq_bind, Option.bind_some, readMany_bitStream, hbytes, ne_eq, not_true_eq_false,
    if_false]
  rfl

/-- One pass of the block loop, by what its header holds (R183). -/
theorem inflateBlocks_of_header {pol : IncompletePolicy} {n : Nat} {r r' : Bits} {out : List Byte} (b0 b1 b2 : Bool)
    (hr : r = b0 :: b1 :: b2 :: r') :
    inflateBlocks pol (n + 1) r out = (inflateBlock pol (b1.toNat + 2 * b2.toNat) r' out).bind fun x =>
      if b0.toNat = 1 then some x.1 else inflateBlocks pol n x.2 x.1 := by
  subst hr
  rw [inflateBlocks]
  rfl

/-- The block loop's fuel on a nonempty input. -/
theorem inflate_cons (pol : IncompletePolicy) (b : Byte) (p : List Byte) :
    inflate pol (b :: p) =
      (inflateBlocks pol ((bitStream p).length + 7 + 1) (byteBits b ++ bitStream p) []).map List.reverse := by
  rw [inflate, bitStream_cons, List.length_append, byteBits_length, Nat.add_comm 8]

/-- The three header bits of a byte and the five that follow them (R182, R183). -/
theorem byteBits_eq (b : Byte) :
    byteBits b = b.getLsbD 0 :: b.getLsbD 1 :: b.getLsbD 2 :: (byteBits b).drop 3 := rfl

/-- Settles O32: bits 2:0 of the byte 01 are a final block of type 0. -/
theorem storedBlockGivesItsBytes : Obligations.StoredBlockGivesItsBytes := by
  unfold Obligations.StoredBlockGivesItsBytes
  intro pol l more hl len
  have hstored := inflateStored_eq l more ((byteBits 0x01#8).drop 3) hl (by decide) []
  change inflate pol (0x01#8 :: (storedHeader len ++ l ++ more)) = some l
  rw [inflate_cons, byteBits_eq, List.cons_append, List.cons_append, List.cons_append,
    inflateBlocks_of_header _ _ _ rfl]
  change Option.map List.reverse ((inflateStored _ []).bind _) = some l
  rw [hstored]
  simp

/-- Settles O31: no bits hold no header, and two bits set are block type 3. -/
theorem emptyAndReservedBlockInvalid : Obligations.EmptyAndReservedBlockInvalid := by
  unfold Obligations.EmptyAndReservedBlockInvalid
  refine fun pol => ⟨rfl, fun b more h1 h2 => ?_⟩
  rw [inflate_cons, byteBits_eq, List.cons_append, List.cons_append, List.cons_append,
    inflateBlocks_of_header _ _ _ rfl,
    h1, h2]
  rfl

/-- The byte `k` of a match at distance `dist` (R191). -/
def historyByte (dist : Nat) (out : List Byte) (k : Nat) : Byte := out.getD (out.length - dist + k % dist) 0

/-- The byte a copy takes next, at distance `dist` from the end of what it has written (R191). -/
theorem getD_copied (dist k : Nat) (out : List Byte) (hpos : 1 ≤ dist) (hdist : dist ≤ out.length) :
    (out ++ (List.range k).map (historyByte dist out)).getD (out.length + k - dist) 0 = historyByte dist out k := by
  by_cases hk : k < dist
  · rw [List.getD_append _ _ _ _ (by omega), historyByte, Nat.mod_eq_of_lt hk]
    congr 1
    omega
  · have hsub : out.length + k - dist - out.length = k - dist := by omega
    have hmod : (k - dist) % dist = k % dist := (Nat.mod_eq_sub_mod (Nat.le_of_not_lt hk)).symm
    rw [List.getD_append_right _ _ _ _ (by omega), hsub, List.getD_eq_getElem?_getD, List.getElem?_map,
      List.getElem?_range (by omega)]
    simp only [Option.map_some, Option.getD_some, historyByte, hmod]

/-- A copy that has written `k` bytes of the history goes on with the next (R191). -/
theorem copyMatch_eq (dist n k : Nat) (out : List Byte) (hpos : 1 ≤ dist) (hdist : dist ≤ out.length) :
    copyMatch dist n (out ++ (List.range k).map (historyByte dist out)).reverse =
      (out ++ (List.range (k + n)).map (historyByte dist out)).reverse := by
  induction n generalizing k with
  | zero => rfl
  | succ n ih =>
    have hnext : (out ++ (List.range k).map (historyByte dist out)).reverse.getD (dist - 1) 0 =
        historyByte dist out k := by
      rw [List.getD_reverse _ (by simp; omega), ← getD_copied dist k out hpos hdist]
      congr 1
      simp
      omega
    have hcons : historyByte dist out k :: (out ++ (List.range k).map (historyByte dist out)).reverse =
        (out ++ (List.range (k + 1)).map (historyByte dist out)).reverse := by
      simp [List.range_succ]
    rw [copyMatch, hnext, hcons, ih, Nat.add_right_comm, Nat.add_assoc]

/-- Settles O36: from an output with nothing copied yet. -/
theorem matchCopyRepeatsHistory : Obligations.MatchCopyRepeatsHistory := by
  unfold Obligations.MatchCopyRepeatsHistory
  intro dist n out hpos hdist
  have hcopy := copyMatch_eq dist n 0 out hpos hdist
  rw [List.range_zero, List.map_nil, List.append_nil, Nat.zero_add] at hcopy
  rw [hcopy, List.reverse_reverse]
  rfl

end Sys2Proof.Machine
end
